-- ==== Sys2Proof/Word.lean ====
section
/-! DEFINITION. The word types of the block: what the spec treats as bits is a bit vector, and a text is a list of bytes. -/

namespace Sys2Proof

/-- A 32-bit value: an ARM opcode, the fetch address, a general register, a display address (R9, R21 to R23). -/
abbrev Word := BitVec 32

/-- One ASCII character of the text output (R25, decision D23). -/
abbrev Byte := BitVec 8

/-- The index of one of the 16 general registers (R26 "a 4-bit register index", R83). -/
abbrev Reg := BitVec 4

/-- The text output: ASCII bytes, first character first, with no terminator (R25). -/
abbrev Text := List Byte

/-- A literal of the spec's notation, byte for byte, with no terminator (R11). -/
def ascii (s : String) : Text := s.toList.map fun c => BitVec.ofNat 8 c.toNat

end Sys2Proof
end

