-- ==== Sys2Proof/Syntax.lean ====
section
/-! DEFINITION. The instruction forms: one constructor per row of spec/opcode_table.json, with that row's fields in that row's order. -/

namespace Sys2Proof

/-- The fifteen named conditions, codes 0 to 14 in the order of R115 and R116. The reserved code 0b1111 is no member (R26, R117). -/
inductive Cond where
  | eq | ne | cs | cc | mi | pl | vs | vc | hi | ls | ge | lt | gt | le | al
deriving DecidableEq, Repr

/-- A decoded form. Bits a form does not read (R88) are not fields of it. `S`, `U`, `W` and `update` are one bit each. -/
inductive Instr where
  /-- `cond = 0b1111`, every other bit any (R141). -/
  | reservedCond
  /-- Branch-and-Exchange (R145). -/
  | bx (cond : Cond) (rm : Reg)
  /-- Miscellaneous sub-group, `id4 = 0b0001`, `op` not 0b01 (R148). -/
  | unknownMiscOther (cond : Cond) (op : BitVec 2)
  /-- Miscellaneous sub-group, `id4` not 0b0001 (R147). -/
  | unknownMiscCategory (cond : Cond) (id4 : BitVec 4)
  /-- Various, not the miscellaneous sub-group (R146). -/
  | unknownVariousOp (cond : Cond) (id2 : BitVec 2) (update : Bool)
  /-- Subtract an immediate (R161). -/
  | sub (cond : Cond) (s : Bool) (rn rd : Reg) (imm12 : BitVec 12)
  /-- Add an immediate (R162). -/
  | add (cond : Cond) (s : Bool) (rn rd : Reg) (imm12 : BitVec 12)
  /-- Move an immediate; `Rn` is not read (R163). -/
  | mov (cond : Cond) (s : Bool) (rd : Reg) (imm12 : BitVec 12)
  /-- DataProcessing with a sub-opcode that is not SUB, ADD or MOV (R164). -/
  | unknownDataProcessing (cond : Cond) (dpop : BitVec 4)
  /-- Store word (R183). -/
  | str (cond : Cond) (u : Bool) (rn rd : Reg) (off12 : BitVec 12)
  /-- Store byte (R184). -/
  | strb (cond : Cond) (u : Bool) (rn rd : Reg) (off12 : BitVec 12)
  /-- Load word (R185). -/
  | ldr (cond : Cond) (u : Bool) (rn rd : Reg) (off12 : BitVec 12)
  /-- Load byte (R186). -/
  | ldrb (cond : Cond) (u : Bool) (rn rd : Reg) (off12 : BitVec 12)
  /-- Store multiple, decrement before, base not SP (R202). -/
  | stmdb (cond : Cond) (w : Bool) (rn : Reg) (list : BitVec 16)
  /-- Store multiple, decrement before, base SP (R203). -/
  | stmfd (cond : Cond) (w : Bool) (list : BitVec 16)
  /-- Load multiple, decrement before, base not SP (R204). -/
  | ldmdb (cond : Cond) (w : Bool) (rn : Reg) (list : BitVec 16)
  /-- Load multiple, decrement before, base SP (R205). -/
  | unknownSPLoadMultiple (cond : Cond)
  /-- BlockDataTransfer in a mode other than decrement-before (R206). -/
  | unknownAddressingMode (cond : Cond) (mode : BitVec 2)
  /-- Branch (R221). -/
  | b (cond : Cond) (imm24 : BitVec 24)
  /-- Branch with link (R222). -/
  | bl (cond : Cond) (imm24 : BitVec 24)
  /-- No category: `opcode[27:25] = 0b011`, the source's id3 0x6 (R149). -/
  | unknownId3x6 (cond : Cond)
  /-- No category: `opcode[27:25] = 0b110`, the source's id3 0xC (R149). -/
  | unknownId3xC (cond : Cond)
  /-- No category: `opcode[27:25] = 0b111`, the source's id3 0xE (R149). -/
  | unknownId3xE (cond : Cond)
  /-- The whole 16-bit path; no meaning reads the halfword (R230). -/
  | unknownThumb (opcode16 : BitVec 16)
deriving DecidableEq, Repr

/-- An instruction as the block receives it: the path select and the word (R21, R24). On the 16-bit path the halfword is `opcode[15:0]`. -/
structure Encoded where
  thumb : Bool
  opcode : Word
deriving DecidableEq, Repr

end Sys2Proof
end

