-- ==== Sys2Proof/Decode.lean ====
section
/-! DEFINITION. The BitField unit, the classification tree of R84 as a total decoder, the encoder written from the same field tables (R71 to R78), and the opcode map of R85. -/

namespace Sys2Proof

/-- BitField, unsigned (R110): `value[offset+width-1 : offset]` as a value of `width` bits. -/
def extractUnsigned (value : Word) (offset width : Nat) : BitVec width := value.extractLsb' offset width

/-- `zext_N(v)`: extension to 32 bits with zeros (R11). -/
def zext {n : Nat} (v : BitVec n) : Word := v.setWidth 32

/-- `sext_N(v)`: extension to 32 bits by copying the top bit (R11). -/
def sext {n : Nat} (v : BitVec n) : Word := v.signExtend 32

/-- BitField, signed (R111): the slice read as two's complement and extended to 32 bits. -/
def extractSigned (value : Word) (offset width : Nat) : Word := sext (extractUnsigned value offset width)

/-- The single bit `v[i]` (R10). -/
def bitAt (value : Word) (i : Nat) : Bool := value.getLsbD i

/-- The condition of a code, in the order of R116; none for the reserved code 0b1111 (R117). -/
def Cond.ofBits (c : BitVec 4) : Option Cond :=
  [Cond.eq, .ne, .cs, .cc, .mi, .pl, .vs, .vc, .hi, .ls, .ge, .lt, .gt, .le, .al][c.toNat]?

/-- The code of a condition (R116). -/
def Cond.bits : Cond → BitVec 4
  | .eq => 0b0000#4
  | .ne => 0b0001#4
  | .cs => 0b0010#4
  | .cc => 0b0011#4
  | .mi => 0b0100#4
  | .pl => 0b0101#4
  | .vs => 0b0110#4
  | .vc => 0b0111#4
  | .hi => 0b1000#4
  | .ls => 0b1001#4
  | .ge => 0b1010#4
  | .lt => 0b1011#4
  | .gt => 0b1100#4
  | .le => 0b1101#4
  | .al => 0b1110#4

/-- The Various arm of the tree (R84, fields R73; R143, R144). -/
def decodeVarious (cond : Cond) (opcode : Word) : Instr :=
  let id2 := extractUnsigned opcode 23 2
  let op := extractUnsigned opcode 21 2
  let update := bitAt opcode 20
  let id4 := extractUnsigned opcode 4 4
  if id2 = 0b10#2 ∧ update = false then
    if id4 = 0b0001#4 then
      if op = 0b01#2 then .bx cond (extractUnsigned opcode 0 4)
      else .unknownMiscOther cond op
    else .unknownMiscCategory cond id4
  else .unknownVariousOp cond id2 update

/-- The DataProcessing arm (R160, fields R74). -/
def decodeDataProcessing (cond : Cond) (opcode : Word) : Instr :=
  let dpop := extractUnsigned opcode 21 4
  let s := bitAt opcode 20
  let rn := extractUnsigned opcode 16 4
  let rd := extractUnsigned opcode 12 4
  let imm12 := extractUnsigned opcode 0 12
  if dpop = 0b0010#4 then .sub cond s rn rd imm12
  else if dpop = 0b0100#4 then .add cond s rn rd imm12
  else if dpop = 0b1101#4 then .mov cond s rd imm12
  else .unknownDataProcessing cond dpop

/-- The SingleDataTransfer arm: `L` and `B` choose the row (R180, fields R75); bits 24 and 21 are not read. -/
def decodeSingleDataTransfer (cond : Cond) (opcode : Word) : Instr :=
  let u := bitAt opcode 23
  let rn := extractUnsigned opcode 16 4
  let rd := extractUnsigned opcode 12 4
  let off12 := extractUnsigned opcode 0 12
  match bitAt opcode 20, bitAt opcode 22 with
  | false, false => .str cond u rn rd off12
  | false, true => .strb cond u rn rd off12
  | true, false => .ldr cond u rn rd off12
  | true, true => .ldrb cond u rn rd off12

/-- The BlockDataTransfer arm: the mode is checked first, the SP base second (R200, fields R76); bit 22 is not read. -/
def decodeBlockDataTransfer (cond : Cond) (opcode : Word) : Instr :=
  let mode := extractUnsigned opcode 23 2
  let w := bitAt opcode 21
  let rn := extractUnsigned opcode 16 4
  let list := extractUnsigned opcode 0 16
  if mode ≠ 0b10#2 then .unknownAddressingMode cond mode
  else if bitAt opcode 20 = false then
    if rn = 13#4 then .stmfd cond w list else .stmdb cond w rn list
  else
    if rn = 13#4 then .unknownSPLoadMultiple cond else .ldmdb cond w rn list

/-- The Branch arm (R220, fields R77). -/
def decodeBranch (cond : Cond) (opcode : Word) : Instr :=
  if bitAt opcode 24 then .bl cond (extractUnsigned opcode 0 24) else .b cond (extractUnsigned opcode 0 24)

/-- The top-level dispatch on `opcode[27:25]` (R142, values R72). -/
def decodeCategory (cond : Cond) (opcode : Word) : Instr :=
  let id3 := extractUnsigned opcode 25 3
  if id3 = 0b000#3 then decodeVarious cond opcode
  else if id3 = 0b001#3 then decodeDataProcessing cond opcode
  else if id3 = 0b010#3 then decodeSingleDataTransfer cond opcode
  else if id3 = 0b100#3 then decodeBlockDataTransfer cond opcode
  else if id3 = 0b101#3 then decodeBranch cond opcode
  else if id3 = 0b011#3 then .unknownId3x6 cond
  else if id3 = 0b110#3 then .unknownId3xC cond
  else .unknownId3xE cond

/-- The 32-bit path: the reserved condition short-circuits before the category dispatch (R84, R87). -/
def decodeArm (opcode : Word) : Instr :=
  match Cond.ofBits (extractUnsigned opcode 28 4) with
  | none => .reservedCond
  | some cond => decodeCategory cond opcode

/-- The whole tree of R84. It is total and rejects nothing: a word of no implemented form is a sentinel form (R86, R240). -/
def decode (thumb : Bool) (opcode : Word) : Instr :=
  if thumb then .unknownThumb (extractUnsigned opcode 0 16) else decodeArm opcode

/-- One bit as a field. -/
def bit1 (x : Bool) : BitVec 1 := BitVec.ofBool x

/-- A Various word (R73): the bits the form does not read are zero. -/
def packVarious (cond : Cond) (id2 op : BitVec 2) (update : Bool) (id4 rm : BitVec 4) : Word :=
  cond.bits ++ 0b000#3 ++ id2 ++ op ++ bit1 update ++ 0#12 ++ id4 ++ rm

/-- A DataProcessing word (R74). -/
def packDataProcessing (cond : Cond) (dpop : BitVec 4) (s : Bool) (rn rd : Reg) (imm12 : BitVec 12) : Word :=
  cond.bits ++ 0b001#3 ++ dpop ++ bit1 s ++ rn ++ rd ++ imm12

/-- A SingleDataTransfer word (R75): the unread bits 24 and 21 are zero. -/
def packSingleDataTransfer (cond : Cond) (u b l : Bool) (rn rd : Reg) (off12 : BitVec 12) : Word :=
  cond.bits ++ 0b010#3 ++ 0#1 ++ bit1 u ++ bit1 b ++ 0#1 ++ bit1 l ++ rn ++ rd ++ off12

/-- A BlockDataTransfer word (R76): the unread bit 22 is zero. -/
def packBlockDataTransfer (cond : Cond) (mode : BitVec 2) (w l : Bool) (rn : Reg) (list : BitVec 16) : Word :=
  cond.bits ++ 0b100#3 ++ mode ++ 0#1 ++ bit1 w ++ bit1 l ++ rn ++ list

/-- A Branch word (R77). -/
def packBranch (cond : Cond) (lk : Bool) (imm24 : BitVec 24) : Word :=
  cond.bits ++ 0b101#3 ++ bit1 lk ++ imm24

/-- A word of a category that is none of the five (R72): bits 24:0 are not read and are zero. -/
def packUnknown (cond : Cond) (id3 : BitVec 3) : Word :=
  cond.bits ++ id3 ++ 0#25

/-- The word of a form, with every bit the form does not read at zero (log entry 7). -/
def encode : Instr → Encoded
  | .reservedCond => ⟨false, 0b1111#4 ++ 0#28⟩
  | .bx c rm => ⟨false, packVarious c 0b10#2 0b01#2 false 0b0001#4 rm⟩
  | .unknownMiscOther c op => ⟨false, packVarious c 0b10#2 op false 0b0001#4 0#4⟩
  | .unknownMiscCategory c id4 => ⟨false, packVarious c 0b10#2 0#2 false id4 0#4⟩
  | .unknownVariousOp c id2 update => ⟨false, packVarious c id2 0#2 update 0#4 0#4⟩
  | .sub c s rn rd imm => ⟨false, packDataProcessing c 0b0010#4 s rn rd imm⟩
  | .add c s rn rd imm => ⟨false, packDataProcessing c 0b0100#4 s rn rd imm⟩
  | .mov c s rd imm => ⟨false, packDataProcessing c 0b1101#4 s 0#4 rd imm⟩
  | .unknownDataProcessing c dpop => ⟨false, packDataProcessing c dpop false 0#4 0#4 0#12⟩
  | .str c u rn rd off => ⟨false, packSingleDataTransfer c u false false rn rd off⟩
  | .strb c u rn rd off => ⟨false, packSingleDataTransfer c u true false rn rd off⟩
  | .ldr c u rn rd off => ⟨false, packSingleDataTransfer c u false true rn rd off⟩
  | .ldrb c u rn rd off => ⟨false, packSingleDataTransfer c u true true rn rd off⟩
  | .stmdb c w rn list => ⟨false, packBlockDataTransfer c 0b10#2 w false rn list⟩
  | .stmfd c w list => ⟨false, packBlockDataTransfer c 0b10#2 w false 13#4 list⟩
  | .ldmdb c w rn list => ⟨false, packBlockDataTransfer c 0b10#2 w true rn list⟩
  | .unknownSPLoadMultiple c => ⟨false, packBlockDataTransfer c 0b10#2 false true 13#4 0#16⟩
  | .unknownAddressingMode c mode => ⟨false, packBlockDataTransfer c mode false false 0#4 0#16⟩
  | .b c imm => ⟨false, packBranch c false imm⟩
  | .bl c imm => ⟨false, packBranch c true imm⟩
  | .unknownId3x6 c => ⟨false, packUnknown c 0b011#3⟩
  | .unknownId3xC c => ⟨false, packUnknown c 0b110#3⟩
  | .unknownId3xE c => ⟨false, packUnknown c 0b111#3⟩
  | .unknownThumb h => ⟨true, 0#16 ++ h⟩

/-- The opcode map of R85: per row of the 32-bit path its `mask`, its `match`, and whether the word meets the row's extra condition. The rows stand in the map's order. `cond != 0b1111` is asked of every row but the first. -/
def opcodeMap : List (Word × Word × (Word → Bool)) :=
  let op := fun w : Word => extractUnsigned w 21 2
  let id4 := fun w : Word => extractUnsigned w 4 4
  let id2 := fun w : Word => extractUnsigned w 23 2
  let dpop := fun w : Word => extractUnsigned w 21 4
  let rn := fun w : Word => extractUnsigned w 16 4
  let named := fun w : Word => extractUnsigned w 28 4 != 0b1111#4
  [(0xF0000000#32, 0xF0000000#32, fun _ => true),
   (0x0FF000F0#32, 0x01200010#32, fun w => named w),
   (0x0F9000F0#32, 0x01000010#32, fun w => named w && op w != 0b01#2),
   (0x0F900000#32, 0x01000000#32, fun w => named w && id4 w != 0b0001#4),
   (0x0E000000#32, 0x00000000#32, fun w => named w && !(id2 w == 0b10#2 && bitAt w 20 == false)),
   (0x0FE00000#32, 0x02400000#32, fun w => named w),
   (0x0FE00000#32, 0x02800000#32, fun w => named w),
   (0x0FE00000#32, 0x03A00000#32, fun w => named w)] ++
  [(0x0E000000#32, 0x02000000#32, fun w => named w && dpop w != 0b0010#4 && dpop w != 0b0100#4 && dpop w != 0b1101#4),
   (0x0E500000#32, 0x04000000#32, fun w => named w),
   (0x0E500000#32, 0x04400000#32, fun w => named w),
   (0x0E500000#32, 0x04100000#32, fun w => named w),
   (0x0E500000#32, 0x04500000#32, fun w => named w),
   (0x0F900000#32, 0x09000000#32, fun w => named w && rn w != 13#4),
   (0x0F9F0000#32, 0x090D0000#32, fun w => named w),
   (0x0F900000#32, 0x09100000#32, fun w => named w && rn w != 13#4)] ++
  [(0x0F9F0000#32, 0x091D0000#32, fun w => named w),
   (0x0E000000#32, 0x08000000#32, fun w => named w && id2 w != 0b10#2),
   (0x0F000000#32, 0x0A000000#32, fun w => named w),
   (0x0F000000#32, 0x0B000000#32, fun w => named w),
   (0x0E000000#32, 0x06000000#32, fun w => named w),
   (0x0E000000#32, 0x0C000000#32, fun w => named w),
   (0x0E000000#32, 0x0E000000#32, fun w => named w)]

/-- The word matches row `k` of the opcode map: `(w & mask) == match` and the row's extra condition (R85). -/
def rowMatches (k : Nat) (w : Word) : Bool :=
  match opcodeMap[k]? with
  | none => false
  | some (mask, pattern, extra) => (w &&& mask == pattern) && extra w

/-- The row of the opcode map that a form is (R85; the 16-bit row is the last, 23). -/
def Instr.row : Instr → Nat
  | .reservedCond => 0
  | .bx _ _ => 1
  | .unknownMiscOther _ _ => 2
  | .unknownMiscCategory _ _ => 3
  | .unknownVariousOp _ _ _ => 4
  | .sub _ _ _ _ _ => 5
  | .add _ _ _ _ _ => 6
  | .mov _ _ _ _ => 7
  | .unknownDataProcessing _ _ => 8
  | .str _ _ _ _ _ => 9
  | .strb _ _ _ _ _ => 10
  | .ldr _ _ _ _ _ => 11
  | .ldrb _ _ _ _ _ => 12
  | .stmdb _ _ _ _ => 13
  | .stmfd _ _ _ => 14
  | .ldmdb _ _ _ _ => 15
  | .unknownSPLoadMultiple _ => 16
  | .unknownAddressingMode _ _ => 17
  | .b _ _ => 18
  | .bl _ _ => 19
  | .unknownId3x6 _ => 20
  | .unknownId3xC _ => 21
  | .unknownId3xE _ => 22
  | .unknownThumb _ => 23

/-- The instruction word the table numbers as `w`, on `nbits` bits: bits above `nbits` are zero. -/
def tableWord (nbits w : Nat) : Word := BitVec.ofNat 32 (w % 2 ^ nbits)

/-- A row of at most 16 bits is the 16-bit path, which the `thumb` input selects (R24, R70; log entry 5). -/
def tableThumb (nbits : Nat) : Bool := decide (nbits ≤ 16)

/-- What the decoder reads from a word numbered as spec/opcode_table.json numbers it. -/
def decodeTableWord (nbits w : Nat) : Option Instr := some (decode (tableThumb nbits) (tableWord nbits w))

end Sys2Proof
end

