-- ==== Sys2Proof/Machine/Flags.lean ====
section
/-! DEFINITION. What the block does in place of flags. It has none and evaluates no condition (R32): it only names the condition field, and shows the S, B and W bits as letters. -/

namespace Sys2Proof.Machine

/-- The mnemonic suffix of a condition (R116). -/
def suffix : Cond → Text
  | .eq => ascii "EQ"
  | .ne => ascii "NE"
  | .cs => ascii "CS"
  | .cc => ascii "CC"
  | .mi => ascii "MI"
  | .pl => ascii "PL"
  | .vs => ascii "VS"
  | .vc => ascii "VC"
  | .hi => ascii "HI"
  | .ls => ascii "LS"
  | .ge => ascii "GE"
  | .lt => ascii "LT"
  | .gt => ascii "GT"
  | .le => ascii "LE"
  | .al => []

/-- The ConditionDecoder on a raw code: none is the distinct result INVALID (R114, R117). -/
def conditionDecoder (c : BitVec 4) : Option Text := (Cond.ofBits c).map suffix

/-- `sfx(S)`: the letter of a set S-flag (R160). -/
def sfx (s : Bool) : Text := if s then ascii "S" else []

/-- `bsfx`: the letter of a byte transfer (R180). -/
def bsfx (byte : Bool) : Text := if byte then ascii "B" else []

/-- `wb(W)`: the write-back marker (R201). -/
def wb (w : Bool) : Text := if w then ascii "!" else []

end Sys2Proof.Machine
end

