-- ==== Sys2Proof/Machine/Operands.lean ====
section
/-! DEFINITION. Every operand form: register names, hexadecimal numbers, register lists, the display address of a single transfer and the target of a branch. -/

namespace Sys2Proof.Machine

/-- The register-name table (R113). -/
def nameTable (i : BitVec 4) : Text :=
  if i = 13#4 then ascii "SP"
  else if i = 14#4 then ascii "LR"
  else if i = 15#4 then ascii "PC"
  else if i.toNat < 10 then ascii "R" ++ [BitVec.ofNat 8 (0x30 + i.toNat)]
  else ascii "R1" ++ [BitVec.ofNat 8 (0x30 + (i.toNat - 10))]

/-- The RegisterNamer on an index of any size: it is masked to 4 bits before the lookup (R112). -/
def registerNamer (index : Nat) : Text := nameTable (BitVec.ofNat 4 index)

/-- `name(i)`, the name of a register operand (R83, R113). -/
def name (r : Reg) : Text := registerNamer r.toNat

/-- One hexadecimal digit, lower case (R121). -/
def hexDigit (d : BitVec 4) : Byte :=
  if d.toNat < 10 then BitVec.ofNat 8 (0x30 + d.toNat) else BitVec.ofNat 8 (0x61 + (d.toNat - 10))

/-- The eight 4-bit digits of a word, most significant first. -/
def nibbles (v : Word) : List (BitVec 4) :=
  [extractUnsigned v 28 4, extractUnsigned v 24 4, extractUnsigned v 20 4, extractUnsigned v 16 4,
   extractUnsigned v 12 4, extractUnsigned v 8 4, extractUnsigned v 4 4, extractUnsigned v 0 4]

/-- A digit list without its leading zeros, but with its last digit. -/
def stripZeros : List (BitVec 4) → List (BitVec 4)
  | [] => []
  | [d] => [d]
  | d :: e :: ds => if d = 0#4 then stripZeros (e :: ds) else d :: e :: ds

/-- `hex(v)`: `0x` and the digits with no leading zeros, `0x0` for zero (R121). -/
def hex (v : Word) : Text := ascii "0x" ++ (stripZeros (nibbles v)).map hexDigit

/-- An immediate operand: `#` and the unsigned, unrotated number (R79, R91, R122). -/
def immediate (imm12 : BitVec 12) : Text := ascii "#" ++ hex (zext imm12)

/-- The separator between operands (R90). -/
def sep : Text := ascii ", "

/-- Texts joined by a single comma with no space (R124). -/
def joinComma : List Text → Text
  | [] => []
  | [t] => t
  | t :: u :: ts => t ++ ascii "," ++ joinComma (u :: ts)

/-- The register indices of a mask in ascending order (R82). -/
def listed (m : BitVec 16) : List Reg :=
  ((List.range 16).filter fun i => m.getLsbD i).map fun i => BitVec.ofNat 4 i

/-- `reglist(m)` (R124). -/
def reglist (m : BitVec 16) : Text := joinComma ((listed m).map name)

/-- A register list in its braces, which are the bytes 0x7B and 0x7D (R91). -/
def bracedList (m : BitVec 16) : Text := [0x7B#8] ++ reglist m ++ [0x7D#8]

/-- `PC_READ_OFFSET`, the pipeline correction (R9). -/
def pcReadOffset : Word := 8

/-- The value of one register of the snapshot (R23). -/
def readSnapshot (regs : Vector Word 16) (r : Reg) : Word := regs[r.toFin]

/-- The base value of a single transfer: the snapshot's, with 8 added for register 15 (R182, R31). -/
def baseValue (regs : Vector Word 16) (rn : Reg) : Word :=
  if rn = 15#4 then readSnapshot regs rn + pcReadOffset else readSnapshot regs rn

/-- The display address of a single transfer, modulo 2^32 (R80, R182). -/
def displayAddress (regs : Vector Word 16) (u : Bool) (rn : Reg) (off12 : BitVec 12) : Word :=
  if u then baseValue regs rn + zext off12 else baseValue regs rn - zext off12

/-- The target of a branch, modulo 2^32, from the fetch address (R81, R220). The extended field is `extractSigned(opcode, 0, 24)` (R111). -/
def branchTarget (pc : Word) (imm24 : BitVec 24) : Word := pc + pcReadOffset + (sext imm24 <<< 2)

end Sys2Proof.Machine
end

