-- ==== Sys2Proof/Machine/State.lean ====
section
/-! DEFINITION. The state: the block's ports (the block itself holds no state, R28), the structured result of R26, the reasons a step could stop (none exists, R240), and the state after reset. -/

namespace Sys2Proof.Machine

/-- The structured decoded form (R26), one constructor per variant, with the variant's fields in its order. -/
inductive Result where
  | reservedCond
  | bx (cond : Cond) (rm : Reg)
  | unknownVariousOp
  | unknownMiscCategory
  | unknownMiscOther
  | unknown
  | dpSub (cond : Cond) (s : Bool) (rd rn : Reg) (imm12 : BitVec 12)
  | dpAdd (cond : Cond) (s : Bool) (rd rn : Reg) (imm12 : BitVec 12)
  | dpMov (cond : Cond) (s : Bool) (rd : Reg) (imm12 : BitVec 12)
  | unknownDataProcessing
  | sdtIndexed (cond : Cond) (load byte : Bool) (rd rn : Reg)
  | sdtLiteral (cond : Cond) (load byte : Bool) (rd : Reg) (addr : Word)
  /-- `rn` is not 13 (`Result.wf` in Safety.lean). -/
  | stmDb (cond : Cond) (rn : Reg) (w : Bool) (list : BitVec 16)
  /-- The base is SP. -/
  | stmFd (cond : Cond) (w : Bool) (list : BitVec 16)
  /-- `rn` is not 13 (`Result.wf` in Safety.lean). -/
  | ldmDb (cond : Cond) (rn : Reg) (w : Bool) (list : BitVec 16)
  | unknownSPLoadMultiple
  | unknownAddressingMode
  | b (cond : Cond) (target : Word)
  | bl (cond : Cond) (target : Word)
  | unknownThumb
deriving DecidableEq, Repr

/-- The ports. The first four are inputs, which only the host drives; the last three are outputs, which follow the inputs at every moment (R270): every drive and every step writes them anew (log entry 3). -/
structure State where
  /-- Input: the 16-bit stub path when true, the 32-bit path when false (R24). -/
  thumb : Bool
  /-- Input: the word to decode (R21). -/
  opcode : Word
  /-- Input: the fetch address of the word (R22). -/
  pc : Word
  /-- Input: the host's register snapshot, one value per general register (R23, R30). -/
  regs : Vector Word 16
  /-- Output: the structured result (R26). -/
  result : Result
  /-- Output: its text (R25). -/
  text : Text
  /-- Output `text_len`: the number of bytes of `text` (R25). -/
  textLen : Nat
deriving DecidableEq, Repr

/-- Why a step faults. There is no reason: "A model of the block therefore has no fault outcome and no refusal outcome for any input" (R240; log entry 9). -/
inductive Fault where
deriving DecidableEq, Repr

/-- Why a step is refused. No arm of exec raises it, since every form has its meaning (R240; log entry 9). -/
inductive Refusal where
  /-- A form that has no meaning yet. Raised by no arm; safe, since the machine would stop. -/
  | notModelled (mnemonic : String)
deriving DecidableEq, Repr

/-- The state at power-up: the inputs at values the model names, since R270 leaves them unspecified (DESIGN CHOICE, log entry 1), and the outputs at the decode of those inputs, since they are a function of the present inputs from power-up on (R270; DEDUCED, log entry 2). -/
def State.reset : State where
  thumb := false
  opcode := 0
  pc := 0
  regs := Vector.replicate 16 0
  result := .unknownVariousOp
  text := ascii "unknown various op"
  textLen := 18

end Sys2Proof.Machine
end

