-- ==== Sys2Proof/Machine/Render.lean ====
section
/-! DEFINITION. The Category Formatters: the text of every result variant (R86, R90, R91). -/

namespace Sys2Proof.Machine

/-- The common text of SUB and ADD (R161, R162). -/
def renderThreeOperand (base : Text) (c : Cond) (s : Bool) (d n : Reg) (i : BitVec 12) : Text :=
  base ++ sfx s ++ suffix c ++ ascii " " ++ name d ++ sep ++ name n ++ sep ++ immediate i

/-- The text of MOV (R163). -/
def renderMove (c : Cond) (s : Bool) (d : Reg) (i : BitVec 12) : Text :=
  ascii "MOV" ++ sfx s ++ suffix c ++ ascii " " ++ name d ++ sep ++ immediate i

/-- `mn(l, b, c)`, the mnemonic of a single transfer (R180, R181). -/
def transferMnemonic (load byte : Bool) (c : Cond) : Text :=
  (if load then ascii "LDR" else ascii "STR") ++ bsfx byte ++ suffix c

/-- The indexed form, for a zero offset (R181). -/
def renderIndexed (c : Cond) (load byte : Bool) (d n : Reg) : Text :=
  transferMnemonic load byte c ++ ascii " " ++ name d ++ sep ++ ascii "[" ++ name n ++ ascii "]"

/-- The literal form, for a nonzero offset (R181). -/
def renderLiteral (c : Cond) (load byte : Bool) (d : Reg) (addr : Word) : Text :=
  transferMnemonic load byte c ++ ascii " " ++ name d ++ sep ++ ascii "=" ++ hex addr

/-- The common text of the three block transfers (R201). -/
def renderBlock (base modetext : Text) (c : Cond) (rn : Reg) (w : Bool) (list : BitVec 16) : Text :=
  base ++ modetext ++ suffix c ++ ascii " " ++ name rn ++ wb w ++ sep ++ bracedList list

/-- The text of a branch with the given mnemonic base (R221, R222). -/
def renderBranch (base : Text) (c : Cond) (target : Word) : Text :=
  base ++ suffix c ++ ascii " " ++ hex target

/-- `render(result)`: the one place where a result becomes text (R12, R140). -/
def render : Result → Text
  | .reservedCond => ascii "0b1111 condition"
  | .bx c m => ascii "BX" ++ suffix c ++ ascii " " ++ name m
  | .unknownVariousOp => ascii "unknown various op"
  | .unknownMiscCategory => ascii "unknown misc category"
  | .unknownMiscOther => ascii "unknown misc other"
  | .unknown => ascii "Unknown"
  | .dpSub c s d n i => renderThreeOperand (ascii "SUB") c s d n i
  | .dpAdd c s d n i => renderThreeOperand (ascii "ADD") c s d n i
  | .dpMov c s d i => renderMove c s d i
  | .unknownDataProcessing => ascii "Unknown data processing"
  | .sdtIndexed c l b d n => renderIndexed c l b d n
  | .sdtLiteral c l b d a => renderLiteral c l b d a
  | .stmDb c n w list => renderBlock (ascii "STM") (ascii "DB") c n w list
  | .stmFd c w list => renderBlock (ascii "STM") (ascii "FD") c 13#4 w list
  | .ldmDb c n w list => renderBlock (ascii "LDM") (ascii "DB") c n w list
  | .unknownSPLoadMultiple => ascii "unknown SP load multiple"
  | .unknownAddressingMode => ascii "Unknown addressing mode"
  | .b c t => renderBranch (ascii "B") c t
  | .bl c t => renderBranch (ascii "BL") c t
  | .unknownThumb => ascii "unknown thumb instruction"

end Sys2Proof.Machine
end

