-- ==== Sys2Proof/Machine/Ops.lean ====
section
/-! DEFINITION. The named operations on the state: the inputs are set, the block reads them, and a decode writes the outputs. There is no memory operation (R50) and no taking of an exception or return from one (R240, R243): a failure is a sentinel result, written by the same `State.emit` as any other (R86, R241). -/

namespace Sys2Proof.Machine

/-- The levels at the input ports are replaced (R21 to R24). The outputs do not follow by this alone: the host's whole act is `State.drive` in Settle.lean. -/
def State.setInputs (s : State) (thumb : Bool) (opcode pc : Word) (regs : Vector Word 16) : State :=
  { s with thumb := thumb, opcode := opcode, pc := pc, regs := regs }

/-- The instruction at the input ports. -/
def State.instr (s : State) : Instr := decode s.thumb s.opcode

/-- A decode writes its three outputs and nothing else (R12, R25, R26, R28). -/
def State.emit (s : State) (r : Result) : State :=
  { s with result := r, text := render r, textLen := (render r).length }

/-- The outcome of a decode: always a next state (R240). -/
def decoded (s : State) (r : Result) : Host.Outcome State Fault Refusal := .next (s.emit r)

end Sys2Proof.Machine
end

