-- ==== Sys2Proof/Machine/BlockDataTransfer.lean ====
section
/-! DEFINITION. The BlockDataTransfer category (R200 to R206): the transfer is rendered, none of it is performed. -/

namespace Sys2Proof.Machine

/-- STMDB (R202). -/
def execStmdb (cond : Cond) (w : Bool) (rn : Reg) (list : BitVec 16) (s : State) : Host.Outcome State Fault Refusal :=
  decoded s (.stmDb cond rn w list)

/-- STMFD (R203). -/
def execStmfd (cond : Cond) (w : Bool) (list : BitVec 16) (s : State) : Host.Outcome State Fault Refusal :=
  decoded s (.stmFd cond w list)

/-- LDMDB (R204). -/
def execLdmdb (cond : Cond) (w : Bool) (rn : Reg) (list : BitVec 16) (s : State) : Host.Outcome State Fault Refusal :=
  decoded s (.ldmDb cond rn w list)

/-- UnknownSPLoadMultiple (R205). -/
def execUnknownSPLoadMultiple (s : State) : Host.Outcome State Fault Refusal := decoded s .unknownSPLoadMultiple

/-- UnknownAddressingMode (R206). -/
def execUnknownAddressingMode (s : State) : Host.Outcome State Fault Refusal := decoded s .unknownAddressingMode

end Sys2Proof.Machine
end

