-- ==== Sys2Proof/Machine/Branch.lean ====
section
/-! DEFINITION. The Branch category (R220 to R222): the target is computed and rendered; nothing branches and LR is not written. -/

namespace Sys2Proof.Machine

/-- B (R221). -/
def execB (cond : Cond) (imm24 : BitVec 24) (s : State) : Host.Outcome State Fault Refusal :=
  decoded s (.b cond (branchTarget s.pc imm24))

/-- BL (R222). -/
def execBl (cond : Cond) (imm24 : BitVec 24) (s : State) : Host.Outcome State Fault Refusal :=
  decoded s (.bl cond (branchTarget s.pc imm24))

end Sys2Proof.Machine
end

