-- ==== Sys2Proof/Machine/DataProcessing.lean ====
section
/-! DEFINITION. The DataProcessing category (R160 to R164): no arithmetic is performed. -/

namespace Sys2Proof.Machine

/-- SUB (R161). -/
def execSub (cond : Cond) (sf : Bool) (rn rd : Reg) (imm12 : BitVec 12) (s : State) : Host.Outcome State Fault Refusal :=
  decoded s (.dpSub cond sf rd rn imm12)

/-- ADD (R162). -/
def execAdd (cond : Cond) (sf : Bool) (rn rd : Reg) (imm12 : BitVec 12) (s : State) : Host.Outcome State Fault Refusal :=
  decoded s (.dpAdd cond sf rd rn imm12)

/-- MOV (R163). -/
def execMov (cond : Cond) (sf : Bool) (rd : Reg) (imm12 : BitVec 12) (s : State) : Host.Outcome State Fault Refusal :=
  decoded s (.dpMov cond sf rd imm12)

/-- UnknownDataProcessing (R164). -/
def execUnknownDataProcessing (s : State) : Host.Outcome State Fault Refusal := decoded s .unknownDataProcessing

end Sys2Proof.Machine
end

