-- ==== Sys2Proof/Machine/SingleDataTransfer.lean ====
section
/-! DEFINITION. The SingleDataTransfer category (R180 to R186): a display address is computed, no memory is accessed. -/

namespace Sys2Proof.Machine

/-- The form choice (R181): the snapshot is read only where the offset is nonzero (R182, R23). -/
def singleTransfer (regs : Vector Word 16) (cond : Cond) (load byte u : Bool) (rn rd : Reg) (off12 : BitVec 12) : Result :=
  if off12 = 0#12 then .sdtIndexed cond load byte rd rn
  else .sdtLiteral cond load byte rd (displayAddress regs u rn off12)

/-- STR (R183). -/
def execStr (cond : Cond) (u : Bool) (rn rd : Reg) (off12 : BitVec 12) (s : State) : Host.Outcome State Fault Refusal :=
  decoded s (singleTransfer s.regs cond false false u rn rd off12)

/-- STRB (R184). -/
def execStrb (cond : Cond) (u : Bool) (rn rd : Reg) (off12 : BitVec 12) (s : State) : Host.Outcome State Fault Refusal :=
  decoded s (singleTransfer s.regs cond false true u rn rd off12)

/-- LDR (R185). -/
def execLdr (cond : Cond) (u : Bool) (rn rd : Reg) (off12 : BitVec 12) (s : State) : Host.Outcome State Fault Refusal :=
  decoded s (singleTransfer s.regs cond true false u rn rd off12)

/-- LDRB (R186). -/
def execLdrb (cond : Cond) (u : Bool) (rn rd : Reg) (off12 : BitVec 12) (s : State) : Host.Outcome State Fault Refusal :=
  decoded s (singleTransfer s.regs cond true true u rn rd off12)

end Sys2Proof.Machine
end

