-- ==== Sys2Proof/Machine/Thumb.lean ====
section
/-! DEFINITION. The 16-bit stub path (R230, R231). -/

namespace Sys2Proof.Machine

/-- UnknownThumb (R230): none of the halfword's bits is read. -/
def execUnknownThumb (s : State) : Host.Outcome State Fault Refusal := decoded s .unknownThumb

end Sys2Proof.Machine
end

