-- ==== Sys2Proof/Machine/Various.lean ====
section
/-! DEFINITION. The reserved condition, the Various category and the top-level sentinel (R141 to R149). -/

namespace Sys2Proof.Machine

/-- ReservedCond (R141). -/
def execReservedCond (s : State) : Host.Outcome State Fault Refusal := decoded s .reservedCond

/-- BX (R145): the register is named, its value is not read. -/
def execBx (cond : Cond) (rm : Reg) (s : State) : Host.Outcome State Fault Refusal := decoded s (.bx cond rm)

/-- UnknownMiscOther (R148). -/
def execUnknownMiscOther (s : State) : Host.Outcome State Fault Refusal := decoded s .unknownMiscOther

/-- UnknownMiscCategory (R147). -/
def execUnknownMiscCategory (s : State) : Host.Outcome State Fault Refusal := decoded s .unknownMiscCategory

/-- UnknownVariousOp (R146). -/
def execUnknownVariousOp (s : State) : Host.Outcome State Fault Refusal := decoded s .unknownVariousOp

/-- Unknown, id3 0x6 (R149): the result carries no condition. -/
def execUnknownId3x6 (s : State) : Host.Outcome State Fault Refusal := decoded s .unknown

/-- Unknown, id3 0xC (R149). -/
def execUnknownId3xC (s : State) : Host.Outcome State Fault Refusal := decoded s .unknown

/-- Unknown, id3 0xE (R149). -/
def execUnknownId3xE (s : State) : Host.Outcome State Fault Refusal := decoded s .unknown

end Sys2Proof.Machine
end

