-- ==== Sys2Proof/Machine/Dispatch.lean ====
section
/-! DEFINITION. The dispatch: one arm per constructor of Instr, each one direct call of its meaning. -/

namespace Sys2Proof.Machine

/-- The effect of one decoded form. -/
def exec (i : Instr) (s : State) : Host.Outcome State Fault Refusal :=
  match i with
  | .reservedCond => Sys2Proof.Machine.execReservedCond s
  | .bx cond rm => Sys2Proof.Machine.execBx cond rm s
  | .unknownMiscOther _ _ => Sys2Proof.Machine.execUnknownMiscOther s
  | .unknownMiscCategory _ _ => Sys2Proof.Machine.execUnknownMiscCategory s
  | .unknownVariousOp _ _ _ => Sys2Proof.Machine.execUnknownVariousOp s
  | .sub cond sf rn rd imm12 => Sys2Proof.Machine.execSub cond sf rn rd imm12 s
  | .add cond sf rn rd imm12 => Sys2Proof.Machine.execAdd cond sf rn rd imm12 s
  | .mov cond sf rd imm12 => Sys2Proof.Machine.execMov cond sf rd imm12 s
  | .unknownDataProcessing _ _ => Sys2Proof.Machine.execUnknownDataProcessing s
  | .str cond u rn rd off12 => Sys2Proof.Machine.execStr cond u rn rd off12 s
  | .strb cond u rn rd off12 => Sys2Proof.Machine.execStrb cond u rn rd off12 s
  | .ldr cond u rn rd off12 => Sys2Proof.Machine.execLdr cond u rn rd off12 s
  | .ldrb cond u rn rd off12 => Sys2Proof.Machine.execLdrb cond u rn rd off12 s
  | .stmdb cond w rn list => Sys2Proof.Machine.execStmdb cond w rn list s
  | .stmfd cond w list => Sys2Proof.Machine.execStmfd cond w list s
  | .ldmdb cond w rn list => Sys2Proof.Machine.execLdmdb cond w rn list s
  | .unknownSPLoadMultiple _ => Sys2Proof.Machine.execUnknownSPLoadMultiple s
  | .unknownAddressingMode _ _ => Sys2Proof.Machine.execUnknownAddressingMode s
  | .b cond imm24 => Sys2Proof.Machine.execB cond imm24 s
  | .bl cond imm24 => Sys2Proof.Machine.execBl cond imm24 s
  | .unknownId3x6 _ => Sys2Proof.Machine.execUnknownId3x6 s
  | .unknownId3xC _ => Sys2Proof.Machine.execUnknownId3xC s
  | .unknownId3xE _ => Sys2Proof.Machine.execUnknownId3xE s
  | .unknownThumb _ => Sys2Proof.Machine.execUnknownThumb s

end Sys2Proof.Machine
end

