-- ==== Sys2Proof/Machine/Settle.lean ====
section
/-! DEFINITION. The block is combinational: whenever an input changes, the outputs follow it at once (R270, R28). -/

namespace Sys2Proof.Machine

/-- The state an outcome leaves: the next state, and the state before where there is none (which no input gives, R240). -/
def outcomeOr (s : State) : Host.Outcome State Fault Refusal → State
  | .next t => t
  | .fault _ => s
  | .refused _ => s

/-- The outputs brought to the function of the present inputs that R270 says they are. -/
def State.settle (s : State) : State := outcomeOr s (exec s.instr s)

/-- The host presents inputs (R33, R272), and the outputs follow them with no decode in between at which they show an earlier input (R270). -/
def State.drive (s : State) (thumb : Bool) (opcode pc : Word) (regs : Vector Word 16) : State :=
  (s.setInputs thumb opcode pc regs).settle

end Sys2Proof.Machine
end

