-- ==== Sys2Proof/Machine/Step.lean ====
section
/-! DEFINITION. One step is one decode (R20, R278): the form at the input ports is given its effect. -/

namespace Sys2Proof.Machine

/-- One decode, from the inputs to the outputs. -/
def step (s : State) : Host.Outcome State Fault Refusal := exec s.instr s

/-- The host drives the word and the path select, and keeps the fetch address and the snapshot as they are; the outputs follow the new inputs (R270; log entries 3 and 4). -/
def State.withFetchWord (s : State) (nbits w : Nat) : State :=
  s.drive (tableThumb nbits) (tableWord nbits w) s.pc s.regs

end Sys2Proof.Machine
end

