-- ==== Sys2Proof/Config.lean ====
section
/-! DEFINITION. The parameters of R9 that are not widths of a type or part of a formatter. A parameter the spec leaves open is an opaque constant: nothing in Lean can evaluate it. -/

namespace Sys2Proof

/-- The order in which a host assembles a word from the bytes of its memory image (R52, decision D15). -/
inductive ByteOrder where
  | littleEndian
  | bigEndian
deriving DecidableEq, Repr, Inhabited

/-- `MAX_TEXT_LEN`, the length of the longest text (R9, R27). -/
def Config.maxTextLen : Nat := 66

/-- `DECODE_LATENCY`, left open by the spec; no rule depends on it (R9, R278, decision D18; log entry 11). -/
opaque Config.decodeLatency : Nat

/-- `HOST_FETCH_ORDER`, a parameter of the host outside the block, left open by the spec (R9, R52, decision D15; log entry 11). -/
opaque Config.hostFetchOrder : ByteOrder

end Sys2Proof
end

