-- ==== Sys2Proof/WellFormed.lean ====
section
/-! DEFINITION. Which instructions are forms of the opcode map: the extra conditions of R85. (`cond != 0b1111` is the type `Cond`.) -/

namespace Sys2Proof

/-- The extra condition of the instruction's row in R85, true where the row has none. -/
def Instr.wf : Instr → Bool
  | .reservedCond => true
  | .bx _ _ => true
  | .unknownMiscOther _ op => op != 0b01#2
  | .unknownMiscCategory _ id4 => id4 != 0b0001#4
  | .unknownVariousOp _ id2 update => !(id2 == 0b10#2 && update == false)
  | .sub _ _ _ _ _ => true
  | .add _ _ _ _ _ => true
  | .mov _ _ _ _ => true
  | .unknownDataProcessing _ dpop => dpop != 0b0010#4 && dpop != 0b0100#4 && dpop != 0b1101#4
  | .str _ _ _ _ _ => true
  | .strb _ _ _ _ _ => true
  | .ldr _ _ _ _ _ => true
  | .ldrb _ _ _ _ _ => true
  | .stmdb _ _ rn _ => rn != 13#4
  | .stmfd _ _ _ => true
  | .ldmdb _ _ rn _ => rn != 13#4
  | .unknownSPLoadMultiple _ => true
  | .unknownAddressingMode _ mode => mode != 0b10#2
  | .b _ _ => true
  | .bl _ _ => true
  | .unknownId3x6 _ => true
  | .unknownId3xC _ => true
  | .unknownId3xE _ => true
  | .unknownThumb _ => true

end Sys2Proof
end

