-- ==== Sys2Proof/Safety.lean ====
section
/-! DEFINITION. The terms the claims are stated in: what a good output is, the block as one pure function written straight from the spec's tree, which bits and inputs a form reads, and how a shown number is read back. -/

namespace Sys2Proof.Machine

/-- The limits of R26 on a result: the base of `STM_DB` and of `LDM_DB` is not 13. -/
def Result.wf : Result → Bool
  | .stmDb _ rn _ _ => rn != 13#4
  | .ldmDb _ rn _ _ => rn != 13#4
  | .reservedCond | .bx _ _ | .unknownVariousOp | .unknownMiscCategory | .unknownMiscOther | .unknown => true
  | .dpSub _ _ _ _ _ | .dpAdd _ _ _ _ _ | .dpMov _ _ _ _ | .unknownDataProcessing => true
  | .sdtIndexed _ _ _ _ _ | .sdtLiteral _ _ _ _ _ => true
  | .stmFd _ _ _ | .unknownSPLoadMultiple | .unknownAddressingMode => true
  | .b _ _ | .bl _ _ | .unknownThumb => true

/-- The nine sentinel variants (R86, R241). -/
def Result.isSentinel : Result → Bool
  | .reservedCond | .unknownVariousOp | .unknownMiscCategory | .unknownMiscOther | .unknown => true
  | .unknownDataProcessing | .unknownSPLoadMultiple | .unknownAddressingMode | .unknownThumb => true
  | .bx _ _ | .dpSub _ _ _ _ _ | .dpAdd _ _ _ _ _ | .dpMov _ _ _ _ => false
  | .sdtIndexed _ _ _ _ _ | .sdtLiteral _ _ _ _ _ => false
  | .stmDb _ _ _ _ | .stmFd _ _ _ | .ldmDb _ _ _ _ => false
  | .b _ _ | .bl _ _ => false

/-- The variants R27 calls block transfers. -/
def Result.isBlock : Result → Bool
  | .stmDb _ _ _ _ | .stmFd _ _ _ | .ldmDb _ _ _ _ => true
  | .reservedCond | .bx _ _ | .unknownVariousOp | .unknownMiscCategory | .unknownMiscOther | .unknown => false
  | .dpSub _ _ _ _ _ | .dpAdd _ _ _ _ _ | .dpMov _ _ _ _ | .unknownDataProcessing => false
  | .sdtIndexed _ _ _ _ _ | .sdtLiteral _ _ _ _ _ => false
  | .unknownSPLoadMultiple | .unknownAddressingMode | .b _ _ | .bl _ _ | .unknownThumb => false

/-- The variants R27 calls data processing and single transfers. -/
def Result.isDataOrSingle : Result → Bool
  | .dpSub _ _ _ _ _ | .dpAdd _ _ _ _ _ | .dpMov _ _ _ _ => true
  | .sdtIndexed _ _ _ _ _ | .sdtLiteral _ _ _ _ _ => true
  | .reservedCond | .bx _ _ | .unknownVariousOp | .unknownMiscCategory | .unknownMiscOther | .unknown => false
  | .unknownDataProcessing | .stmDb _ _ _ _ | .stmFd _ _ _ | .ldmDb _ _ _ _ => false
  | .unknownSPLoadMultiple | .unknownAddressingMode | .b _ _ | .bl _ _ | .unknownThumb => false

/-- A state whose outputs are the given result and text; every input is that of `s`. -/
def State.shows (s : State) (r : Result) (t : Text) : State :=
  { s with result := r, text := t, textLen := t.length }

/-- Good outputs: the result is a variant of R26, the text is its rendering (R12), `text_len` is the text's length, from 1 to MAX_TEXT_LEN (R25), and every byte is a printable ASCII character (D23). -/
def State.OutputsGood (s : State) : Prop :=
  s.result.wf = true ∧ s.text = render s.result ∧ s.textLen = s.text.length ∧
  1 ≤ s.textLen ∧ s.textLen ≤ Config.maxTextLen ∧ ∀ x ∈ s.text, 0x20 ≤ x.toNat ∧ x.toNat ≤ 0x7E

/-- The two outcomes are next states with the same outputs. -/
def SameOutputs (x y : Host.Outcome State Fault Refusal) : Prop :=
  ∃ s t, x = .next s ∧ y = .next t ∧ s.result = t.result ∧ s.text = t.text ∧ s.textLen = t.textLen

/-- The display address of R182, computed on integers and narrowed once. -/
def addressOf (regs : Vector Word 16) (u : Bool) (rn : Reg) (off12 : BitVec 12) : Word :=
  let base : Int := (regs[rn.toFin]).toNat + (if rn = 15#4 then 8 else 0)
  BitVec.ofInt 32 (if u then base + off12.toNat else base - off12.toNat)

/-- The branch target of R220, computed on integers and narrowed once. -/
def targetOf (pc : Word) (imm24 : BitVec 24) : Word := BitVec.ofInt 32 (pc.toNat + 8 + 4 * imm24.toInt)

/-- The 32-bit path holds a word of condition `c` that meets a row's mask and match (R85). -/
def State.Holds (s : State) (c : Cond) (mask pattern : Word) : Prop :=
  s.thumb = false ∧ Cond.ofBits (s.opcode.extractLsb' 28 4) = some c ∧ s.opcode &&& mask = pattern

/-- The 32-bit path holds a word of category `id3` whose condition is not the reserved one (R142). -/
def State.InCategory (s : State) (id3 : BitVec 3) : Prop :=
  s.thumb = false ∧ s.opcode.extractLsb' 28 4 ≠ 0b1111#4 ∧ s.opcode.extractLsb' 25 3 = id3

/-- The classification tree of R84, with the arms of R160, R181, R200 and R220 in place, as ONE function of the four inputs: no instruction syntax between the bits and the result. -/
def facade (thumb : Bool) (opcode pc : Word) (regs : Vector Word 16) : Result :=
  if thumb then .unknownThumb
  else match Cond.ofBits (opcode.extractLsb' 28 4) with
  | none => .reservedCond
  | some cond =>
    let rn := opcode.extractLsb' 16 4
    let rd := opcode.extractLsb' 12 4
    let imm := opcode.extractLsb' 0 12
    let list := opcode.extractLsb' 0 16
    let l := opcode.getLsbD 20
    let w := opcode.getLsbD 21
    match (opcode.extractLsb' 25 3).toNat with
    | 0 =>
      if (opcode.extractLsb' 23 2).toNat = 2 ∧ l = false then
        if (opcode.extractLsb' 4 4).toNat = 1 then
          if (opcode.extractLsb' 21 2).toNat = 1 then .bx cond (opcode.extractLsb' 0 4) else .unknownMiscOther
        else .unknownMiscCategory
      else .unknownVariousOp
    | 1 =>
      match (opcode.extractLsb' 21 4).toNat with
      | 2 => .dpSub cond l rd rn imm
      | 4 => .dpAdd cond l rd rn imm
      | 13 => .dpMov cond l rd imm
      | _ => .unknownDataProcessing
    | 2 =>
      if imm.toNat = 0 then .sdtIndexed cond l (opcode.getLsbD 22) rd rn
      else .sdtLiteral cond l (opcode.getLsbD 22) rd (addressOf regs (opcode.getLsbD 23) rn imm)
    | 4 =>
      if (opcode.extractLsb' 23 2).toNat ≠ 2 then .unknownAddressingMode
      else match l, decide (rn.toNat = 13) with
        | false, true => .stmFd cond w list
        | false, false => .stmDb cond rn w list
        | true, true => .unknownSPLoadMultiple
        | true, false => .ldmDb cond rn w list
    | 5 =>
      if opcode.getLsbD 24 then .bl cond (targetOf pc (opcode.extractLsb' 0 24))
      else .b cond (targetOf pc (opcode.extractLsb' 0 24))
    | _ => .unknown

/-- The outputs are the function of the present inputs: the tree's result, its text and that text's length (R28, R270). -/
def State.Settled (s : State) : Prop :=
  s.result = facade s.thumb s.opcode s.pc s.regs ∧ s.text = render s.result ∧ s.textLen = s.text.length

/-- The states from power-up on: the one at power-up, and what any drive of the host and any step lead to. -/
inductive Reachable : State → Prop where
  | powerUp : Reachable State.reset
  | drive {s : State} (h : Reachable s) (thumb : Bool) (opcode pc : Word) (regs : Vector Word 16) :
      Reachable (s.drive thumb opcode pc regs)
  | step {s t : State} (h : Reachable s) (hs : step s = .next t) : Reachable t

/-- The rows of the opcode map that decode a form rather than name a failed step (R86). -/
def implemented : Instr → Bool
  | .bx _ _ | .sub _ _ _ _ _ | .add _ _ _ _ _ | .mov _ _ _ _ => true
  | .str _ _ _ _ _ | .strb _ _ _ _ _ | .ldr _ _ _ _ _ | .ldrb _ _ _ _ _ => true
  | .stmdb _ _ _ _ | .stmfd _ _ _ | .ldmdb _ _ _ _ | .b _ _ | .bl _ _ => true
  | .reservedCond | .unknownMiscOther _ _ | .unknownMiscCategory _ _ | .unknownVariousOp _ _ _ => false
  | .unknownDataProcessing _ _ | .unknownSPLoadMultiple _ | .unknownAddressingMode _ _ => false
  | .unknownId3x6 _ | .unknownId3xC _ | .unknownId3xE _ | .unknownThumb _ => false

/-- The bits of a 32-bit word that the tree reads on the way to a form and in it (R71 to R77); every other bit is a don't-care (R88). The 16-bit path keeps the halfword, which no meaning reads. -/
def readBits : Instr → Word
  | .reservedCond => 0xF0000000#32
  | .bx _ _ => 0xFFF000FF#32
  | .unknownMiscOther _ _ => 0xFFF000F0#32
  | .unknownMiscCategory _ _ => 0xFF9000F0#32
  | .unknownVariousOp _ _ _ => 0xFF900000#32
  | .sub _ _ _ _ _ | .add _ _ _ _ _ => 0xFFFFFFFF#32
  | .mov _ _ _ _ => 0xFFF0FFFF#32
  | .unknownDataProcessing _ _ => 0xFFE00000#32
  | .str _ _ _ _ _ | .strb _ _ _ _ _ | .ldr _ _ _ _ _ | .ldrb _ _ _ _ _ => 0xFEDFFFFF#32
  | .stmdb _ _ _ _ | .stmfd _ _ _ | .ldmdb _ _ _ _ => 0xFFBFFFFF#32
  | .unknownSPLoadMultiple _ => 0xFF9F0000#32
  | .unknownAddressingMode _ _ => 0xFF800000#32
  | .b _ _ | .bl _ _ => 0xFFFFFFFF#32
  | .unknownId3x6 _ | .unknownId3xC _ | .unknownId3xE _ => 0xFE000000#32
  | .unknownThumb _ => 0x0000FFFF#32

/-- The value of one shown hexadecimal digit. -/
def digitValue (x : Byte) : Nat := if x.toNat < 0x3A then x.toNat - 0x30 else x.toNat - 0x57

/-- The number a hexadecimal text shows: its digits after `0x`, base 16. -/
def hexValue (t : Text) : Nat := (t.drop 2).foldl (fun acc x => 16 * acc + digitValue x) 0

end Sys2Proof.Machine
end

