-- ==== Sys2Proof/Certificates/Slice0/Obligations.lean ====
section
/-! DEFINITION. The statements for the provers. Each docstring names the rule of spec/ that the statement formalises. -/

open Sys2Proof Sys2Proof.Machine

/-! ### Encoding -/

/-- A word of every family, written out from the field tables R71 to R78, decodes to its form (95_test_vectors.md sections 1 and 2). -/
def Obligations.SampleWordsDecodeRight : Prop :=
  decode false 0xE12FFF13#32 = .bx .al 3#4 ∧
  decode false 0x129320FF#32 = .add .ne true 3#4 2#4 0x0FF#12 ∧
  decode false 0xE5432004#32 = .strb .al false 3#4 2#4 0x004#12 ∧
  decode false 0xE91BA810#32 = .ldmdb .al false 11#4 0xA810#16 ∧
  decode false 0xBB000001#32 = .bl .lt 0x000001#24 ∧
  decode false 0xF8BD0030#32 = .reservedCond ∧
  decode false 0xE7912003#32 = .unknownId3x6 .al ∧
  decode true 0xF000F000#32 = .unknownThumb 0xF000#16

/-- Decoding the word of a well-formed form gives the form back, with every operand at every value (R71 to R78, R85). -/
def Obligations.DecodeEncodeRoundTrip : Prop :=
  ∀ i : Instr, i.wf = true → decode (encode i).thumb (encode i).opcode = i

/-- Encoding what a word decodes to gives the word back on every bit the form reads, and zero on the others (R71 to R77, R88; zero is the model's choice, log entry 7). -/
def Obligations.EncodeKeepsEveryReadBit : Prop :=
  ∀ w : Word, encode (decode false w) = ⟨false, w &&& readBits (decode false w)⟩

/-- Whatever the inputs hold, the decoder gives a form that meets its row's extra condition (R84, R85). -/
def Obligations.DecodedFormsAreWellFormed : Prop :=
  ∀ (thumb : Bool) (w : Word), (decode thumb w).wf = true

/-- R85: every 32-bit word matches exactly one row of the opcode map, the row of the form it decodes to; every 16-bit value is the last row. -/
def Obligations.ExactlyOneOpcodeRowMatches : Prop :=
  (∀ w : Word, (decode false w).row < 23 ∧ ∀ k : Nat, rowMatches k w = true ↔ k = (decode false w).row) ∧
  (∀ w : Word, (decode true w).row = 23)

/-- R88: two words that differ only in bits the first one's form does not read give the same outputs. -/
def Obligations.UnreadBitsDoNotMatter : Prop :=
  ∀ (s : State) (x : Word), s.thumb = false →
    SameOutputs (step s) (step { s with opcode := s.opcode ^^^ (x &&& ~~~ readBits s.instr) })

/-! ### The machine -/

/-- One step is one decode: the decoded, well-formed instruction is executed and nothing is added around it (R20, R140). -/
def Obligations.StepRunsDecodedInstruction : Prop :=
  ∀ (s : State) (i : Instr), decode s.thumb s.opcode = i → i.wf = true → step s = exec i s

/-- R240: no input faults or is refused, every input has exactly one next result with a non-empty text, and an encoding the block cannot decode is reported by a sentinel variant and no other. -/
def Obligations.EveryInputHasOneNextResult : Prop :=
  ∀ s : State, (∀ f, step s ≠ .fault f) ∧ (∀ r, step s ≠ .refused r) ∧
    ∃ t, step s = .next t ∧ (∀ u, step s = .next u → u = t) ∧ t.text ≠ [] ∧
      t.result.isSentinel = !implemented s.instr

/-- The frame of every instruction: a next state has the inputs of the state before, every register of the snapshot and the fetch address among them (10_state.md sections 2 and 4, 41 to 46 "Flags written: none"). -/
def Obligations.ExecChangesOutputsOnly : Prop :=
  ∀ (i : Instr) (s t : State), exec i s = .next t →
    t.thumb = s.thumb ∧ t.opcode = s.opcode ∧ t.pc = s.pc ∧
    (∀ r : Reg, t.regs[r.toFin] = s.regs[r.toFin]) ∧ t.regs = s.regs

/-- The invariant: from every state with good outputs a step gives a state with good outputs, the 66-byte limit, the printable ASCII and the limits on the base register among them (10_state.md sections 3 and 4). -/
def Obligations.StepKeepsOutputsGood : Prop :=
  ∀ s t : State, s.OutputsGood → step s = .next t → t.OutputsGood

/-- The outputs at reset are good and are the decode of the reset inputs (log entries 1 and 2: the model's choice, DESIGN CHOICE and DEDUCED). -/
def Obligations.ResetOutputsGood : Prop :=
  State.reset.OutputsGood ∧ step State.reset = .next State.reset

/-- R12, R84, R242, with the arms of R182, R200 and R220: a step's result is that of the classification tree, the first arm that applies, evaluated on the four inputs with the addresses computed on integers; its text is the rendering, and nothing else changes. -/
def Obligations.StepFollowsClassificationTree : Prop :=
  ∀ s : State, step s = .next (s.shows (facade s.thumb s.opcode s.pc s.regs)
    (render (facade s.thumb s.opcode s.pc s.regs)))

/-- The invariant behind R270: a step and a drive keep the outputs the function of the present inputs, a drive with any inputs (10_state.md section 4, 70_reset_and_hazards.md section 1). -/
def Obligations.StepAndDriveKeepOutputsSettled : Prop :=
  ∀ s : State, s.Settled →
    (∀ t, step s = .next t → t.Settled) ∧
    (∀ (thumb : Bool) (opcode pc : Word) (regs : Vector Word 16), (s.drive thumb opcode pc regs).Settled)

/-- R270: at every moment from power-up on the outputs are the function of the present inputs (whatever values log entry 1 gives the inputs at power-up), and what a state held before a drive plays no part in the state after it. -/
def Obligations.OutputsFollowInputsAtEveryMoment : Prop :=
  (∀ s : State, Reachable s → s.Settled) ∧
  (∀ (s u : State) (thumb : Bool) (opcode pc : Word) (regs : Vector Word 16),
    s.drive thumb opcode pc regs = u.drive thumb opcode pc regs) ∧
  (∀ (s : State) (thumb : Bool) (opcode pc : Word) (regs : Vector Word 16),
    (s.drive thumb opcode pc regs).Settled ∧ (s.drive thumb opcode pc regs).thumb = thumb ∧
    (s.drive thumb opcode pc regs).opcode = opcode ∧ (s.drive thumb opcode pc regs).pc = pc ∧
    (s.drive thumb opcode pc regs).regs = regs)

/-- R150: the facade is total with a non-empty text, its outputs depend on the inputs alone whatever outputs the state held, and the reserved condition gives its sentinel whatever the other bits are. -/
def Obligations.FacadeIsTotalDeterministicAndRejectsReserved : Prop :=
  (∀ s : State, ∃ t, step s = .next t ∧ t.text ≠ [] ∧ 1 ≤ t.textLen) ∧
  (∀ s t : State, s.thumb = t.thumb → s.opcode = t.opcode → s.pc = t.pc → s.regs = t.regs →
    SameOutputs (step s) (step t)) ∧
  (∀ (s : State) (x : BitVec 28), s.thumb = false → s.opcode = 0b1111#4 ++ x →
    step s = .next (s.shows .reservedCond (ascii "0b1111 condition")))

/-- Repeating a decode with the same inputs gives the same state (20_memory.md section 4). -/
def Obligations.RepeatedDecodeIsStable : Prop :=
  ∀ s t : State, step s = .next t → step t = .next t

/-- R23: the snapshot has no effect on any output unless the word is a SingleDataTransfer with a nonzero offset, and then only the element `regs[Rn]` has. -/
def Obligations.SnapshotReadOnlyAtLiteralBase : Prop :=
  (∀ (s : State) (regs : Vector Word 16),
    ¬ (s.InCategory 0b010#3 ∧ s.opcode.extractLsb' 0 12 ≠ 0#12) →
      SameOutputs (step s) (step { s with regs := regs })) ∧
  (∀ (s : State) (regs : Vector Word 16),
    regs[(s.opcode.extractLsb' 16 4).toFin] = s.regs[(s.opcode.extractLsb' 16 4).toFin] →
      SameOutputs (step s) (step { s with regs := regs }))

/-- The one element that is read does matter: changing `regs[Rn]` under a nonzero offset changes the result (43_single_data_transfer.md R182, in part). -/
def Obligations.LiteralBaseIsRead : Prop :=
  ∀ (s t u : State) (regs : Vector Word 16), s.InCategory 0b010#3 → s.opcode.extractLsb' 0 12 ≠ 0#12 →
    regs[(s.opcode.extractLsb' 16 4).toFin] ≠ s.regs[(s.opcode.extractLsb' 16 4).toFin] →
    step s = .next t → step { s with regs := regs } = .next u → t.result ≠ u.result

/-- The fetch address has no effect on any output outside the Branch category, the base R15 of a single transfer included (10_state.md section 2, 90_conflicts.md C1). -/
def Obligations.FetchAddressReadOnlyByBranch : Prop :=
  ∀ (s : State) (pc : Word), ¬ s.InCategory 0b101#3 → SameOutputs (step s) (step { s with pc := pc })

/-! ### Results of the instructions: the row's encoding, and the completed effect for every operand and state -/

/-- R141: the reserved condition gives its sentinel whatever the other bits are. -/
def Obligations.ReservedConditionShowsSentinel : Prop :=
  (∀ s : State, s.thumb = false → s.opcode.extractLsb' 28 4 = 0b1111#4 → step s = exec .reservedCond s) ∧
  (∀ s : State, exec .reservedCond s = .next (s.shows .reservedCond (ascii "0b1111 condition")))

/-- R145: Branch-and-Exchange. -/
def Obligations.BranchExchangeNamesItsRegister : Prop :=
  (∀ (s : State) (c : Cond), s.Holds c 0x0FF000F0#32 0x01200010#32 →
    step s = exec (.bx c (s.opcode.extractLsb' 0 4)) s) ∧
  (∀ (c : Cond) (m : Reg) (s : State), exec (.bx c m) s =
    .next (s.shows (.bx c m) (ascii "BX" ++ suffix c ++ ascii " " ++ name m)))

/-- R146, R147, R148: the three sentinels of the Various category, each at the step where the sub-classifier stops. -/
def Obligations.VariousSentinelsNameTheFailedStep : Prop :=
  (∀ (s : State) (c : Cond), s.Holds c 0x0E000000#32 0x00000000#32 →
    ¬ (s.opcode.extractLsb' 23 2 = 0b10#2 ∧ s.opcode.getLsbD 20 = false) →
    step s = exec (.unknownVariousOp c (s.opcode.extractLsb' 23 2) (s.opcode.getLsbD 20)) s) ∧
  (∀ (s : State) (c : Cond), s.Holds c 0x0F900000#32 0x01000000#32 → s.opcode.extractLsb' 4 4 ≠ 0b0001#4 →
    step s = exec (.unknownMiscCategory c (s.opcode.extractLsb' 4 4)) s) ∧
  (∀ (s : State) (c : Cond), s.Holds c 0x0F9000F0#32 0x01000010#32 → s.opcode.extractLsb' 21 2 ≠ 0b01#2 →
    step s = exec (.unknownMiscOther c (s.opcode.extractLsb' 21 2)) s) ∧
  (∀ (c : Cond) (id2 : BitVec 2) (u : Bool) (s : State), exec (.unknownVariousOp c id2 u) s =
    .next (s.shows .unknownVariousOp (ascii "unknown various op"))) ∧
  (∀ (c : Cond) (id4 : BitVec 4) (s : State), exec (.unknownMiscCategory c id4) s =
    .next (s.shows .unknownMiscCategory (ascii "unknown misc category"))) ∧
  (∀ (c : Cond) (op : BitVec 2) (s : State), exec (.unknownMiscOther c op) s =
    .next (s.shows .unknownMiscOther (ascii "unknown misc other")))

/-- R149: the three groups of words that are no category. -/
def Obligations.NoCategoryShowsUnknown : Prop :=
  (∀ (s : State) (c : Cond), s.Holds c 0x0E000000#32 0x06000000#32 → step s = exec (.unknownId3x6 c) s) ∧
  (∀ (s : State) (c : Cond), s.Holds c 0x0E000000#32 0x0C000000#32 → step s = exec (.unknownId3xC c) s) ∧
  (∀ (s : State) (c : Cond), s.Holds c 0x0E000000#32 0x0E000000#32 → step s = exec (.unknownId3xE c) s) ∧
  (∀ (c : Cond) (s : State), exec (.unknownId3x6 c) s = .next (s.shows .unknown (ascii "Unknown"))) ∧
  (∀ (c : Cond) (s : State), exec (.unknownId3xC c) s = .next (s.shows .unknown (ascii "Unknown"))) ∧
  (∀ (c : Cond) (s : State), exec (.unknownId3xE c) s = .next (s.shows .unknown (ascii "Unknown")))

/-- R161: SUB. -/
def Obligations.SubtractShowsThreeOperands : Prop :=
  (∀ (s : State) (c : Cond), s.Holds c 0x0FE00000#32 0x02400000#32 →
    step s = exec (.sub c (s.opcode.getLsbD 20) (s.opcode.extractLsb' 16 4) (s.opcode.extractLsb' 12 4)
      (s.opcode.extractLsb' 0 12)) s) ∧
  (∀ (c : Cond) (f : Bool) (n d : Reg) (i : BitVec 12) (s : State), exec (.sub c f n d i) s =
    .next (s.shows (.dpSub c f d n i) (ascii "SUB" ++ (if f then ascii "S" else []) ++ suffix c ++ ascii " " ++
      name d ++ ascii ", " ++ name n ++ ascii ", #" ++ hex (i.setWidth 32))))

/-- R162: ADD. -/
def Obligations.AddShowsThreeOperands : Prop :=
  (∀ (s : State) (c : Cond), s.Holds c 0x0FE00000#32 0x02800000#32 →
    step s = exec (.add c (s.opcode.getLsbD 20) (s.opcode.extractLsb' 16 4) (s.opcode.extractLsb' 12 4)
      (s.opcode.extractLsb' 0 12)) s) ∧
  (∀ (c : Cond) (f : Bool) (n d : Reg) (i : BitVec 12) (s : State), exec (.add c f n d i) s =
    .next (s.shows (.dpAdd c f d n i) (ascii "ADD" ++ (if f then ascii "S" else []) ++ suffix c ++ ascii " " ++
      name d ++ ascii ", " ++ name n ++ ascii ", #" ++ hex (i.setWidth 32))))

/-- R163: MOV; the `Rn` field is not read. -/
def Obligations.MoveShowsTwoOperands : Prop :=
  (∀ (s : State) (c : Cond), s.Holds c 0x0FE00000#32 0x03A00000#32 →
    step s = exec (.mov c (s.opcode.getLsbD 20) (s.opcode.extractLsb' 12 4) (s.opcode.extractLsb' 0 12)) s) ∧
  (∀ (c : Cond) (f : Bool) (d : Reg) (i : BitVec 12) (s : State), exec (.mov c f d i) s =
    .next (s.shows (.dpMov c f d i) (ascii "MOV" ++ (if f then ascii "S" else []) ++ suffix c ++ ascii " " ++
      name d ++ ascii ", #" ++ hex (i.setWidth 32))))

/-- R164: every other sub-opcode. -/
def Obligations.OtherSubOpcodesShowSentinel : Prop :=
  (∀ (s : State) (c : Cond), s.Holds c 0x0E000000#32 0x02000000#32 →
    s.opcode.extractLsb' 21 4 ≠ 0b0010#4 → s.opcode.extractLsb' 21 4 ≠ 0b0100#4 →
    s.opcode.extractLsb' 21 4 ≠ 0b1101#4 →
    step s = exec (.unknownDataProcessing c (s.opcode.extractLsb' 21 4)) s) ∧
  (∀ (c : Cond) (dpop : BitVec 4) (s : State), exec (.unknownDataProcessing c dpop) s =
    .next (s.shows .unknownDataProcessing (ascii "Unknown data processing")))

/-- R183 (with R181 and R182 at L = 0, B = 0): STR. -/
def Obligations.StoreWordShowsItsOperand : Prop :=
  (∀ (s : State) (c : Cond), s.Holds c 0x0E500000#32 0x04000000#32 →
    step s = exec (.str c (s.opcode.getLsbD 23) (s.opcode.extractLsb' 16 4) (s.opcode.extractLsb' 12 4)
      (s.opcode.extractLsb' 0 12)) s) ∧
  (∀ (c : Cond) (u : Bool) (n d : Reg) (s : State), exec (.str c u n d 0#12) s =
    .next (s.shows (.sdtIndexed c false false d n)
      (ascii "STR" ++ suffix c ++ ascii " " ++ name d ++ ascii ", [" ++ name n ++ ascii "]"))) ∧
  (∀ (c : Cond) (u : Bool) (n d : Reg) (o : BitVec 12) (s : State), o ≠ 0#12 → exec (.str c u n d o) s =
    .next (s.shows (.sdtLiteral c false false d (addressOf s.regs u n o))
      (ascii "STR" ++ suffix c ++ ascii " " ++ name d ++ ascii ", =" ++ hex (addressOf s.regs u n o))))

/-- R184 (with R181 and R182 at L = 0, B = 1): STRB. -/
def Obligations.StoreByteShowsItsOperand : Prop :=
  (∀ (s : State) (c : Cond), s.Holds c 0x0E500000#32 0x04400000#32 →
    step s = exec (.strb c (s.opcode.getLsbD 23) (s.opcode.extractLsb' 16 4) (s.opcode.extractLsb' 12 4)
      (s.opcode.extractLsb' 0 12)) s) ∧
  (∀ (c : Cond) (u : Bool) (n d : Reg) (s : State), exec (.strb c u n d 0#12) s =
    .next (s.shows (.sdtIndexed c false true d n)
      (ascii "STRB" ++ suffix c ++ ascii " " ++ name d ++ ascii ", [" ++ name n ++ ascii "]"))) ∧
  (∀ (c : Cond) (u : Bool) (n d : Reg) (o : BitVec 12) (s : State), o ≠ 0#12 → exec (.strb c u n d o) s =
    .next (s.shows (.sdtLiteral c false true d (addressOf s.regs u n o))
      (ascii "STRB" ++ suffix c ++ ascii " " ++ name d ++ ascii ", =" ++ hex (addressOf s.regs u n o))))

/-- R185 (with R181 and R182 at L = 1, B = 0): LDR. -/
def Obligations.LoadWordShowsItsOperand : Prop :=
  (∀ (s : State) (c : Cond), s.Holds c 0x0E500000#32 0x04100000#32 →
    step s = exec (.ldr c (s.opcode.getLsbD 23) (s.opcode.extractLsb' 16 4) (s.opcode.extractLsb' 12 4)
      (s.opcode.extractLsb' 0 12)) s) ∧
  (∀ (c : Cond) (u : Bool) (n d : Reg) (s : State), exec (.ldr c u n d 0#12) s =
    .next (s.shows (.sdtIndexed c true false d n)
      (ascii "LDR" ++ suffix c ++ ascii " " ++ name d ++ ascii ", [" ++ name n ++ ascii "]"))) ∧
  (∀ (c : Cond) (u : Bool) (n d : Reg) (o : BitVec 12) (s : State), o ≠ 0#12 → exec (.ldr c u n d o) s =
    .next (s.shows (.sdtLiteral c true false d (addressOf s.regs u n o))
      (ascii "LDR" ++ suffix c ++ ascii " " ++ name d ++ ascii ", =" ++ hex (addressOf s.regs u n o))))

/-- R186 (with R181 and R182 at L = 1, B = 1): LDRB. -/
def Obligations.LoadByteShowsItsOperand : Prop :=
  (∀ (s : State) (c : Cond), s.Holds c 0x0E500000#32 0x04500000#32 →
    step s = exec (.ldrb c (s.opcode.getLsbD 23) (s.opcode.extractLsb' 16 4) (s.opcode.extractLsb' 12 4)
      (s.opcode.extractLsb' 0 12)) s) ∧
  (∀ (c : Cond) (u : Bool) (n d : Reg) (s : State), exec (.ldrb c u n d 0#12) s =
    .next (s.shows (.sdtIndexed c true true d n)
      (ascii "LDRB" ++ suffix c ++ ascii " " ++ name d ++ ascii ", [" ++ name n ++ ascii "]"))) ∧
  (∀ (c : Cond) (u : Bool) (n d : Reg) (o : BitVec 12) (s : State), o ≠ 0#12 → exec (.ldrb c u n d o) s =
    .next (s.shows (.sdtLiteral c true true d (addressOf s.regs u n o))
      (ascii "LDRB" ++ suffix c ++ ascii " " ++ name d ++ ascii ", =" ++ hex (addressOf s.regs u n o))))

/-- R202 (with R201): STMDB. -/
def Obligations.StoreMultipleShowsBaseAndList : Prop :=
  (∀ (s : State) (c : Cond), s.Holds c 0x0F900000#32 0x09000000#32 → s.opcode.extractLsb' 16 4 ≠ 13#4 →
    step s = exec (.stmdb c (s.opcode.getLsbD 21) (s.opcode.extractLsb' 16 4) (s.opcode.extractLsb' 0 16)) s) ∧
  (∀ (c : Cond) (w : Bool) (n : Reg) (l : BitVec 16) (s : State), exec (.stmdb c w n l) s =
    .next (s.shows (.stmDb c n w l) (ascii "STMDB" ++ suffix c ++ ascii " " ++ name n ++
      (if w then ascii "!" else []) ++ ascii ", " ++ [0x7B#8] ++ reglist l ++ [0x7D#8])))

/-- R203 (with R201): STMFD, the spelling of a store whose base is SP. -/
def Obligations.StackStoreShowsFullDescending : Prop :=
  (∀ (s : State) (c : Cond), s.Holds c 0x0F9F0000#32 0x090D0000#32 →
    step s = exec (.stmfd c (s.opcode.getLsbD 21) (s.opcode.extractLsb' 0 16)) s) ∧
  (∀ (c : Cond) (w : Bool) (l : BitVec 16) (s : State), exec (.stmfd c w l) s =
    .next (s.shows (.stmFd c w l) (ascii "STMFD" ++ suffix c ++ ascii " SP" ++
      (if w then ascii "!" else []) ++ ascii ", " ++ [0x7B#8] ++ reglist l ++ [0x7D#8])))

/-- R204 (with R201): LDMDB. -/
def Obligations.LoadMultipleShowsBaseAndList : Prop :=
  (∀ (s : State) (c : Cond), s.Holds c 0x0F900000#32 0x09100000#32 → s.opcode.extractLsb' 16 4 ≠ 13#4 →
    step s = exec (.ldmdb c (s.opcode.getLsbD 21) (s.opcode.extractLsb' 16 4) (s.opcode.extractLsb' 0 16)) s) ∧
  (∀ (c : Cond) (w : Bool) (n : Reg) (l : BitVec 16) (s : State), exec (.ldmdb c w n l) s =
    .next (s.shows (.ldmDb c n w l) (ascii "LDMDB" ++ suffix c ++ ascii " " ++ name n ++
      (if w then ascii "!" else []) ++ ascii ", " ++ [0x7B#8] ++ reglist l ++ [0x7D#8])))

/-- R205, R206: the two sentinels of the BlockDataTransfer category; the mode is checked before the SP base. -/
def Obligations.BlockSentinelsFollowCheckOrder : Prop :=
  (∀ (s : State) (c : Cond), s.Holds c 0x0F9F0000#32 0x091D0000#32 →
    step s = exec (.unknownSPLoadMultiple c) s) ∧
  (∀ (s : State) (c : Cond), s.Holds c 0x0E000000#32 0x08000000#32 → s.opcode.extractLsb' 23 2 ≠ 0b10#2 →
    step s = exec (.unknownAddressingMode c (s.opcode.extractLsb' 23 2)) s) ∧
  (∀ (c : Cond) (s : State), exec (.unknownSPLoadMultiple c) s =
    .next (s.shows .unknownSPLoadMultiple (ascii "unknown SP load multiple"))) ∧
  (∀ (c : Cond) (mode : BitVec 2) (s : State), exec (.unknownAddressingMode c mode) s =
    .next (s.shows .unknownAddressingMode (ascii "Unknown addressing mode")))

/-- R221 (with the target of R220): B. -/
def Obligations.BranchShowsItsTarget : Prop :=
  (∀ (s : State) (c : Cond), s.Holds c 0x0F000000#32 0x0A000000#32 →
    step s = exec (.b c (s.opcode.extractLsb' 0 24)) s) ∧
  (∀ (c : Cond) (i : BitVec 24) (s : State), exec (.b c i) s =
    .next (s.shows (.b c (targetOf s.pc i)) (ascii "B" ++ suffix c ++ ascii " " ++ hex (targetOf s.pc i))))

/-- R222 (with the target of R220): BL. -/
def Obligations.BranchLinkShowsItsTarget : Prop :=
  (∀ (s : State) (c : Cond), s.Holds c 0x0F000000#32 0x0B000000#32 →
    step s = exec (.bl c (s.opcode.extractLsb' 0 24)) s) ∧
  (∀ (c : Cond) (i : BitVec 24) (s : State), exec (.bl c i) s =
    .next (s.shows (.bl c (targetOf s.pc i)) (ascii "BL" ++ suffix c ++ ascii " " ++ hex (targetOf s.pc i))))

/-- R230: the 16-bit path gives its sentinel for every word and every other input, the reserved condition included. -/
def Obligations.ThumbPathShowsSentinel : Prop :=
  (∀ s : State, s.thumb = true → step s =
    .next (s.shows .unknownThumb (ascii "unknown thumb instruction"))) ∧
  (∀ (h : BitVec 16) (s : State), exec (.unknownThumb h) s =
    .next (s.shows .unknownThumb (ascii "unknown thumb instruction")))

/-! ### The shared units -/

/-- R110, R111: BitField's slices, unsigned and signed, for every offset and width within the word. -/
def Obligations.BitFieldReadsSlices : Prop :=
  ∀ (v : Word) (o k : Nat), o + k ≤ 32 →
    (extractUnsigned v o k).toNat = v.toNat / 2 ^ o % 2 ^ k ∧
    (extractSigned v o k).toInt =
      if 0 < k ∧ v.getLsbD (o + k - 1) = true then ((v.toNat / 2 ^ o % 2 ^ k : Nat) : Int) - 2 ^ k
      else ((v.toNat / 2 ^ o % 2 ^ k : Nat) : Int)

/-- R113: the names of 13 to 15, and no two distinct indices share a name; an index of any size is masked first (R112). -/
def Obligations.RegisterNamesAreDistinct : Prop :=
  (name 13#4 = ascii "SP" ∧ name 14#4 = ascii "LR" ∧ name 15#4 = ascii "PC") ∧
  (∀ r : Reg, r.toNat < 13 → name r = ascii "R" ++ ascii (toString r.toNat)) ∧
  (∀ i j : Nat, registerNamer i = registerNamer j ↔ i % 16 = j % 16)

/-- R116: the whole condition table, the INVALID entry included. -/
def Obligations.ConditionTableIsComplete : Prop :=
  (List.range 16).map (fun c => conditionDecoder (BitVec.ofNat 4 c)) =
    ["EQ", "NE", "CS", "CC", "MI", "PL", "VS", "VC", "HI", "LS", "GE", "LT", "GT", "LE", ""].map
      (fun t => some (ascii t)) ++ [none]

/-- R121: `hex` starts with `0x`, shows the number, in 3 to 10 characters, with the digits `0` to `9` and lower-case `a` to `f`, and with no leading zero. -/
def Obligations.HexShowsTheNumber : Prop :=
  ∀ v : Word, hexValue (hex v) = v.toNat ∧ (hex v).take 2 = ascii "0x" ∧
    3 ≤ (hex v).length ∧ (hex v).length ≤ 10 ∧
    (∀ x ∈ (hex v).drop 2, x ∈ ascii "0123456789abcdef") ∧
    (((hex v).drop 2).head? = some 0x30#8 → v = 0#32 ∧ hex v = ascii "0x0")

/-- R124: the names of the listed registers in ascending order of the index, joined by a single comma. -/
def Obligations.RegisterListIsAscending : Prop :=
  ∀ m : BitVec 16, reglist m = List.intercalate (ascii ",")
    (((List.finRange 16).filter fun i => m[i]).map fun i => name (BitVec.ofNat 4 i.val))

/-- The shown list determines the mask: no two masks share a list (30_encoding.md section 4, 40_lookup_units.md section 5). -/
def Obligations.RegisterListDeterminesMask : Prop :=
  ∀ m k : BitVec 16, reglist m = reglist k → m = k

/-- R81: the branch offset is four times the signed field, from -0x2000000 to +0x1fffffc. -/
def Obligations.BranchOffsetRange : Prop :=
  ∀ i : BitVec 24, (sext i <<< 2).toInt = 4 * i.toInt ∧ -0x2000000 ≤ (sext i <<< 2).toInt ∧
    (sext i <<< 2).toInt ≤ 0x1fffffc

/-- The target in the result of B and of BL is a multiple of 4 exactly when the fetch address is, and both forms complete either way (20_memory.md section 3). -/
def Obligations.TargetAlignedWhenFetchIs : Prop :=
  (∀ (c : Cond) (i : BitVec 24) (s : State), ∃ t a, exec (.b c i) s = .next t ∧ t.result = .b c a ∧
    (a.toNat % 4 = 0 ↔ s.pc.toNat % 4 = 0)) ∧
  (∀ (c : Cond) (i : BitVec 24) (s : State), ∃ t a, exec (.bl c i) s = .next t ∧ t.result = .bl c a ∧
    (a.toNat % 4 = 0 ↔ s.pc.toNat % 4 = 0)) ∧
  (∀ (pc : Word) (i : BitVec 24), (branchTarget pc i).toNat % 4 = 0 ↔ pc.toNat % 4 = 0)

/-- The model's address and target arithmetic modulo 2^32 is the exact integer arithmetic narrowed once (20_memory.md section 1, decision D3). -/
def Obligations.AddressesWrapModulo : Prop :=
  (∀ (regs : Vector Word 16) (u : Bool) (n : Reg) (o : BitVec 12), displayAddress regs u n o = addressOf regs u n o) ∧
  (∀ (pc : Word) (i : BitVec 24), branchTarget pc i = targetOf pc i)

/-- R27: no text is longer than 66 bytes, only block transfers reach past 25, and the lengths the rule names are reached. -/
def Obligations.LongestTextIs66Bytes : Prop :=
  Config.maxTextLen = 66 ∧
  (∀ r : Result, 1 ≤ (render r).length ∧ (render r).length ≤ 66) ∧
  (∀ r : Result, r.isBlock = false → (render r).length ≤ 25) ∧
  (∀ r : Result, r.isSentinel = true → (render r).length ≤ 25) ∧
  (∀ r : Result, r.isDataOrSingle = true → (render r).length ≤ 23) ∧
  (render (.ldmDb .eq 12#4 true 0xFFFF#16) = ascii "LDMDBEQ R12!, " ++ [0x7B#8] ++
    ascii "R0,R1,R2,R3,R4,R5,R6,R7,R8,R9,R10,R11,R12,SP,LR,PC" ++ [0x7D#8]) ∧
  (render (.ldmDb .eq 12#4 true 0xFFFF#16)).length = 66 ∧ (render .unknownThumb).length = 25 ∧
  render (.dpSub .eq true 10#4 11#4 0xFFF#12) = ascii "SUBSEQ R10, R11, #0xfff" ∧
  render (.sdtLiteral .eq true true 10#4 0xFFFFFFFF#32) = ascii "LDRBEQ R10, =0xffffffff"

/-- The nine sentinel texts stay distinct from one another and from every decoded text (30_encoding.md section 7, 60_exceptions.md section 1). -/
def Obligations.SentinelTextsAreDistinct : Prop :=
  ∀ r q : Result, r.isSentinel = true → render r = render q → r = q

/-- A text determines the result it was rendered from: no two results share a text (30_encoding.md section 8). -/
def Obligations.TextDeterminesResult : Prop :=
  ∀ r q : Result, render r = render q → r = q

/-- The seven standard system encodings listed in 60_exceptions.md section 5 show the texts listed there, in every state. -/
def Obligations.SystemWordsShowSentinels : Prop :=
  ∀ s : State, s.thumb = false →
    (∀ w ∈ [0xEF000000#32, 0xEE010F10#32, 0xED900100#32], step { s with opcode := w } =
      .next ({ s with opcode := w }.shows .unknown (ascii "Unknown"))) ∧
    (∀ w ∈ [0xE10F0000#32, 0xE129F000#32, 0xE1200070#32], step { s with opcode := w } =
      .next ({ s with opcode := w }.shows .unknownMiscCategory (ascii "unknown misc category"))) ∧
    (step { s with opcode := 0xE328F20F#32 } =
      .next ({ s with opcode := 0xE328F20F#32 }.shows .unknownDataProcessing (ascii "Unknown data processing")))
end

