-- ==== Sys2Proof/Laws/Encoding.lean ====
section
/-! SUPPORT. The small lemmas of the encoding: the condition codes, and every field of every packed format read back. -/

namespace Sys2Proof

@[simp] theorem Cond.ofBits_bits (c : Cond) : Cond.ofBits c.bits = some c := by cases c <;> rfl

theorem Cond.ofBits_eq_none (b : BitVec 4) : Cond.ofBits b = none ↔ b = 0b1111#4 := by revert b; decide

theorem Cond.ofBits_eq_some (b : BitVec 4) (c : Cond) : Cond.ofBits b = some c ↔ b = c.bits := by
  revert b; cases c <;> decide

theorem Cond.bits_ne_reserved (c : Cond) : c.bits ≠ 0b1111#4 := by cases c <;> decide

@[simp] theorem packVarious_cond (c : Cond) (id2 op : BitVec 2) (u : Bool) (id4 rm : BitVec 4) :
    extractUnsigned (packVarious c id2 op u id4 rm) 28 4 = c.bits := by
  apply BitVec.eq_of_getLsbD_eq
  intro i hi
  simp only [extractUnsigned, packVarious, bit1, BitVec.getLsbD_extractLsb', BitVec.getLsbD_append]
  interval_cases i <;> simp

@[simp] theorem packVarious_id3 (c : Cond) (id2 op : BitVec 2) (u : Bool) (id4 rm : BitVec 4) :
    extractUnsigned (packVarious c id2 op u id4 rm) 25 3 = 0b000#3 := by
  apply BitVec.eq_of_getLsbD_eq
  intro i hi
  simp only [extractUnsigned, packVarious, bit1, BitVec.getLsbD_extractLsb', BitVec.getLsbD_append]
  interval_cases i <;> simp

@[simp] theorem packVarious_id2 (c : Cond) (id2 op : BitVec 2) (u : Bool) (id4 rm : BitVec 4) :
    extractUnsigned (packVarious c id2 op u id4 rm) 23 2 = id2 := by
  apply BitVec.eq_of_getLsbD_eq
  intro i hi
  simp only [extractUnsigned, packVarious, bit1, BitVec.getLsbD_extractLsb', BitVec.getLsbD_append]
  interval_cases i <;> simp

@[simp] theorem packVarious_op (c : Cond) (id2 op : BitVec 2) (u : Bool) (id4 rm : BitVec 4) :
    extractUnsigned (packVarious c id2 op u id4 rm) 21 2 = op := by
  apply BitVec.eq_of_getLsbD_eq
  intro i hi
  simp only [extractUnsigned, packVarious, bit1, BitVec.getLsbD_extractLsb', BitVec.getLsbD_append]
  interval_cases i <;> simp

@[simp] theorem packVarious_update (c : Cond) (id2 op : BitVec 2) (u : Bool) (id4 rm : BitVec 4) :
    bitAt (packVarious c id2 op u id4 rm) 20 = u := by
  simp only [bitAt, packVarious, bit1, BitVec.getLsbD_append]
  simp

@[simp] theorem packVarious_id4 (c : Cond) (id2 op : BitVec 2) (u : Bool) (id4 rm : BitVec 4) :
    extractUnsigned (packVarious c id2 op u id4 rm) 4 4 = id4 := by
  apply BitVec.eq_of_getLsbD_eq
  intro i hi
  simp only [extractUnsigned, packVarious, bit1, BitVec.getLsbD_extractLsb', BitVec.getLsbD_append]
  interval_cases i <;> simp

@[simp] theorem packVarious_rm (c : Cond) (id2 op : BitVec 2) (u : Bool) (id4 rm : BitVec 4) :
    extractUnsigned (packVarious c id2 op u id4 rm) 0 4 = rm := by
  apply BitVec.eq_of_getLsbD_eq
  intro i hi
  simp only [extractUnsigned, packVarious, bit1, BitVec.getLsbD_extractLsb', BitVec.getLsbD_append]
  interval_cases i <;> simp

@[simp] theorem packDataProcessing_cond (c : Cond) (dpop : BitVec 4) (s : Bool) (rn rd : Reg) (imm : BitVec 12) :
    extractUnsigned (packDataProcessing c dpop s rn rd imm) 28 4 = c.bits := by
  apply BitVec.eq_of_getLsbD_eq
  intro i hi
  simp only [extractUnsigned, packDataProcessing, bit1, BitVec.getLsbD_extractLsb', BitVec.getLsbD_append]
  interval_cases i <;> simp

@[simp] theorem packDataProcessing_id3 (c : Cond) (dpop : BitVec 4) (s : Bool) (rn rd : Reg) (imm : BitVec 12) :
    extractUnsigned (packDataProcessing c dpop s rn rd imm) 25 3 = 0b001#3 := by
  apply BitVec.eq_of_getLsbD_eq
  intro i hi
  simp only [extractUnsigned, packDataProcessing, bit1, BitVec.getLsbD_extractLsb', BitVec.getLsbD_append]
  interval_cases i <;> simp

@[simp] theorem packDataProcessing_dpop (c : Cond) (dpop : BitVec 4) (s : Bool) (rn rd : Reg) (imm : BitVec 12) :
    extractUnsigned (packDataProcessing c dpop s rn rd imm) 21 4 = dpop := by
  apply BitVec.eq_of_getLsbD_eq
  intro i hi
  simp only [extractUnsigned, packDataProcessing, bit1, BitVec.getLsbD_extractLsb', BitVec.getLsbD_append]
  interval_cases i <;> simp

@[simp] theorem packDataProcessing_s (c : Cond) (dpop : BitVec 4) (s : Bool) (rn rd : Reg) (imm : BitVec 12) :
    bitAt (packDataProcessing c dpop s rn rd imm) 20 = s := by
  simp only [bitAt, packDataProcessing, bit1, BitVec.getLsbD_append]
  simp

@[simp] theorem packDataProcessing_rn (c : Cond) (dpop : BitVec 4) (s : Bool) (rn rd : Reg) (imm : BitVec 12) :
    extractUnsigned (packDataProcessing c dpop s rn rd imm) 16 4 = rn := by
  apply BitVec.eq_of_getLsbD_eq
  intro i hi
  simp only [extractUnsigned, packDataProcessing, bit1, BitVec.getLsbD_extractLsb', BitVec.getLsbD_append]
  interval_cases i <;> simp

@[simp] theorem packDataProcessing_rd (c : Cond) (dpop : BitVec 4) (s : Bool) (rn rd : Reg) (imm : BitVec 12) :
    extractUnsigned (packDataProcessing c dpop s rn rd imm) 12 4 = rd := by
  apply BitVec.eq_of_getLsbD_eq
  intro i hi
  simp only [extractUnsigned, packDataProcessing, bit1, BitVec.getLsbD_extractLsb', BitVec.getLsbD_append]
  interval_cases i <;> simp

@[simp] theorem packDataProcessing_imm12 (c : Cond) (dpop : BitVec 4) (s : Bool) (rn rd : Reg) (imm : BitVec 12) :
    extractUnsigned (packDataProcessing c dpop s rn rd imm) 0 12 = imm := by
  apply BitVec.eq_of_getLsbD_eq
  intro i hi
  simp only [extractUnsigned, packDataProcessing, bit1, BitVec.getLsbD_extractLsb', BitVec.getLsbD_append]
  interval_cases i <;> simp

@[simp] theorem packSingleDataTransfer_cond (c : Cond) (u b l : Bool) (rn rd : Reg) (off : BitVec 12) :
    extractUnsigned (packSingleDataTransfer c u b l rn rd off) 28 4 = c.bits := by
  apply BitVec.eq_of_getLsbD_eq
  intro i hi
  simp only [extractUnsigned, packSingleDataTransfer, bit1, BitVec.getLsbD_extractLsb', BitVec.getLsbD_append]
  interval_cases i <;> simp

@[simp] theorem packSingleDataTransfer_id3 (c : Cond) (u b l : Bool) (rn rd : Reg) (off : BitVec 12) :
    extractUnsigned (packSingleDataTransfer c u b l rn rd off) 25 3 = 0b010#3 := by
  apply BitVec.eq_of_getLsbD_eq
  intro i hi
  simp only [extractUnsigned, packSingleDataTransfer, bit1, BitVec.getLsbD_extractLsb', BitVec.getLsbD_append]
  interval_cases i <;> simp

@[simp] theorem packSingleDataTransfer_u (c : Cond) (u b l : Bool) (rn rd : Reg) (off : BitVec 12) :
    bitAt (packSingleDataTransfer c u b l rn rd off) 23 = u := by
  simp only [bitAt, packSingleDataTransfer, bit1, BitVec.getLsbD_append]
  simp

@[simp] theorem packSingleDataTransfer_b (c : Cond) (u b l : Bool) (rn rd : Reg) (off : BitVec 12) :
    bitAt (packSingleDataTransfer c u b l rn rd off) 22 = b := by
  simp only [bitAt, packSingleDataTransfer, bit1, BitVec.getLsbD_append]
  simp

@[simp] theorem packSingleDataTransfer_l (c : Cond) (u b l : Bool) (rn rd : Reg) (off : BitVec 12) :
    bitAt (packSingleDataTransfer c u b l rn rd off) 20 = l := by
  simp only [bitAt, packSingleDataTransfer, bit1, BitVec.getLsbD_append]
  simp

@[simp] theorem packSingleDataTransfer_rn (c : Cond) (u b l : Bool) (rn rd : Reg) (off : BitVec 12) :
    extractUnsigned (packSingleDataTransfer c u b l rn rd off) 16 4 = rn := by
  apply BitVec.eq_of_getLsbD_eq
  intro i hi
  simp only [extractUnsigned, packSingleDataTransfer, bit1, BitVec.getLsbD_extractLsb', BitVec.getLsbD_append]
  interval_cases i <;> simp

@[simp] theorem packSingleDataTransfer_rd (c : Cond) (u b l : Bool) (rn rd : Reg) (off : BitVec 12) :
    extractUnsigned (packSingleDataTransfer c u b l rn rd off) 12 4 = rd := by
  apply BitVec.eq_of_getLsbD_eq
  intro i hi
  simp only [extractUnsigned, packSingleDataTransfer, bit1, BitVec.getLsbD_extractLsb', BitVec.getLsbD_append]
  interval_cases i <;> simp

@[simp] theorem packSingleDataTransfer_off12 (c : Cond) (u b l : Bool) (rn rd : Reg) (off : BitVec 12) :
    extractUnsigned (packSingleDataTransfer c u b l rn rd off) 0 12 = off := by
  apply BitVec.eq_of_getLsbD_eq
  intro i hi
  simp only [extractUnsigned, packSingleDataTransfer, bit1, BitVec.getLsbD_extractLsb', BitVec.getLsbD_append]
  interval_cases i <;> simp

@[simp] theorem packBlockDataTransfer_cond (c : Cond) (mode : BitVec 2) (w l : Bool) (rn : Reg) (list : BitVec 16) :
    extractUnsigned (packBlockDataTransfer c mode w l rn list) 28 4 = c.bits := by
  apply BitVec.eq_of_getLsbD_eq
  intro i hi
  simp only [extractUnsigned, packBlockDataTransfer, bit1, BitVec.getLsbD_extractLsb', BitVec.getLsbD_append]
  interval_cases i <;> simp

@[simp] theorem packBlockDataTransfer_id3 (c : Cond) (mode : BitVec 2) (w l : Bool) (rn : Reg) (list : BitVec 16) :
    extractUnsigned (packBlockDataTransfer c mode w l rn list) 25 3 = 0b100#3 := by
  apply BitVec.eq_of_getLsbD_eq
  intro i hi
  simp only [extractUnsigned, packBlockDataTransfer, bit1, BitVec.getLsbD_extractLsb', BitVec.getLsbD_append]
  interval_cases i <;> simp

@[simp] theorem packBlockDataTransfer_mode (c : Cond) (mode : BitVec 2) (w l : Bool) (rn : Reg) (list : BitVec 16) :
    extractUnsigned (packBlockDataTransfer c mode w l rn list) 23 2 = mode := by
  apply BitVec.eq_of_getLsbD_eq
  intro i hi
  simp only [extractUnsigned, packBlockDataTransfer, bit1, BitVec.getLsbD_extractLsb', BitVec.getLsbD_append]
  interval_cases i <;> simp

@[simp] theorem packBlockDataTransfer_w (c : Cond) (mode : BitVec 2) (w l : Bool) (rn : Reg) (list : BitVec 16) :
    bitAt (packBlockDataTransfer c mode w l rn list) 21 = w := by
  simp only [bitAt, packBlockDataTransfer, bit1, BitVec.getLsbD_append]
  simp

@[simp] theorem packBlockDataTransfer_l (c : Cond) (mode : BitVec 2) (w l : Bool) (rn : Reg) (list : BitVec 16) :
    bitAt (packBlockDataTransfer c mode w l rn list) 20 = l := by
  simp only [bitAt, packBlockDataTransfer, bit1, BitVec.getLsbD_append]
  simp

@[simp] theorem packBlockDataTransfer_rn (c : Cond) (mode : BitVec 2) (w l : Bool) (rn : Reg) (list : BitVec 16) :
    extractUnsigned (packBlockDataTransfer c mode w l rn list) 16 4 = rn := by
  apply BitVec.eq_of_getLsbD_eq
  intro i hi
  simp only [extractUnsigned, packBlockDataTransfer, bit1, BitVec.getLsbD_extractLsb', BitVec.getLsbD_append]
  interval_cases i <;> simp

@[simp] theorem packBlockDataTransfer_list (c : Cond) (mode : BitVec 2) (w l : Bool) (rn : Reg) (list : BitVec 16) :
    extractUnsigned (packBlockDataTransfer c mode w l rn list) 0 16 = list := by
  apply BitVec.eq_of_getLsbD_eq
  intro i hi
  simp only [extractUnsigned, packBlockDataTransfer, bit1, BitVec.getLsbD_extractLsb', BitVec.getLsbD_append]
  interval_cases i <;> simp

@[simp] theorem packBranch_cond (c : Cond) (lk : Bool) (imm : BitVec 24) :
    extractUnsigned (packBranch c lk imm) 28 4 = c.bits := by
  apply BitVec.eq_of_getLsbD_eq
  intro i hi
  simp only [extractUnsigned, packBranch, bit1, BitVec.getLsbD_extractLsb', BitVec.getLsbD_append]
  interval_cases i <;> simp

@[simp] theorem packBranch_id3 (c : Cond) (lk : Bool) (imm : BitVec 24) :
    extractUnsigned (packBranch c lk imm) 25 3 = 0b101#3 := by
  apply BitVec.eq_of_getLsbD_eq
  intro i hi
  simp only [extractUnsigned, packBranch, bit1, BitVec.getLsbD_extractLsb', BitVec.getLsbD_append]
  interval_cases i <;> simp

@[simp] theorem packBranch_lk (c : Cond) (lk : Bool) (imm : BitVec 24) :
    bitAt (packBranch c lk imm) 24 = lk := by
  simp only [bitAt, packBranch, bit1, BitVec.getLsbD_append]
  simp

@[simp] theorem packBranch_imm24 (c : Cond) (lk : Bool) (imm : BitVec 24) :
    extractUnsigned (packBranch c lk imm) 0 24 = imm := by
  apply BitVec.eq_of_getLsbD_eq
  intro i hi
  simp only [extractUnsigned, packBranch, bit1, BitVec.getLsbD_extractLsb', BitVec.getLsbD_append]
  interval_cases i <;> simp

@[simp] theorem packUnknown_cond (c : Cond) (id3 : BitVec 3) :
    extractUnsigned (packUnknown c id3) 28 4 = c.bits := by
  apply BitVec.eq_of_getLsbD_eq
  intro i hi
  simp only [extractUnsigned, packUnknown, BitVec.getLsbD_extractLsb', BitVec.getLsbD_append]
  interval_cases i <;> simp

@[simp] theorem packUnknown_id3 (c : Cond) (id3 : BitVec 3) :
    extractUnsigned (packUnknown c id3) 25 3 = id3 := by
  apply BitVec.eq_of_getLsbD_eq
  intro i hi
  simp only [extractUnsigned, packUnknown, BitVec.getLsbD_extractLsb', BitVec.getLsbD_append]
  interval_cases i <;> simp

@[simp] theorem encode_reserved_cond : extractUnsigned (0b1111#4 ++ 0#28) 28 4 = 0b1111#4 := by decide

@[simp] theorem encode_thumb_halfword (h : BitVec 16) : extractUnsigned (0#16 ++ h) 0 16 = h := by
  apply BitVec.eq_of_getLsbD_eq
  intro i hi
  simp only [extractUnsigned, BitVec.getLsbD_extractLsb', BitVec.getLsbD_append]
  interval_cases i <;> simp

/-- The branch offset of a word is BitField's signed slice of it (R111). -/
theorem sext_branch_field (w : Word) : sext (extractUnsigned w 0 24) = extractSigned w 0 24 := rfl

/-- A field that a mask covers is the field of the matched value. -/
theorem extractUnsigned_of_mask {w m p : Word} (h : w &&& m = p) (o k : Nat)
    (hm : extractUnsigned m o k = BitVec.allOnes k) : extractUnsigned w o k = extractUnsigned p o k := by
  have h1 : extractUnsigned (w &&& m) o k = extractUnsigned w o k &&& extractUnsigned m o k := by
    simp [extractUnsigned, BitVec.extractLsb'_and]
  rw [← h, h1, hm, BitVec.and_allOnes]

/-- A bit that a mask covers is the bit of the matched value. -/
theorem bitAt_of_mask {w m p : Word} (h : w &&& m = p) (i : Nat) (hm : bitAt m i = true) :
    bitAt w i = bitAt p i := by
  subst h
  simp only [bitAt, BitVec.getLsbD_and] at *
  simp [hm]

/-- Two words that agree under a mask agree on every field the mask covers. -/
theorem extractUnsigned_congr {w v m : Word} (h : w &&& m = v &&& m) (o k : Nat)
    (hm : extractUnsigned m o k = BitVec.allOnes k) : extractUnsigned w o k = extractUnsigned v o k := by
  rw [extractUnsigned_of_mask rfl o k hm, h, ← extractUnsigned_of_mask rfl o k hm]

/-- Two words that agree under a mask agree on every bit the mask covers. -/
theorem bitAt_congr {w v m : Word} (h : w &&& m = v &&& m) (i : Nat) (hm : bitAt m i = true) :
    bitAt w i = bitAt v i := by
  rw [bitAt_of_mask rfl i hm, h, ← bitAt_of_mask rfl i hm]

end Sys2Proof
end

