-- ==== Sys2Proof/Laws/State.lean ====
section
/-! SUPPORT. One lemma per field per update of the state, so that no proof unfolds a record update. -/

namespace Sys2Proof.Machine

@[simp] theorem setInputs_thumb (s : State) (t o p r) : (s.setInputs t o p r).thumb = t := rfl
@[simp] theorem setInputs_opcode (s : State) (t o p r) : (s.setInputs t o p r).opcode = o := rfl
@[simp] theorem setInputs_pc (s : State) (t o p r) : (s.setInputs t o p r).pc = p := rfl
@[simp] theorem setInputs_regs (s : State) (t o p r) : (s.setInputs t o p r).regs = r := rfl
@[simp] theorem setInputs_result (s : State) (t o p r) : (s.setInputs t o p r).result = s.result := rfl
@[simp] theorem setInputs_text (s : State) (t o p r) : (s.setInputs t o p r).text = s.text := rfl
@[simp] theorem setInputs_textLen (s : State) (t o p r) : (s.setInputs t o p r).textLen = s.textLen := rfl

@[simp] theorem emit_thumb (s : State) (r) : (s.emit r).thumb = s.thumb := rfl
@[simp] theorem emit_opcode (s : State) (r) : (s.emit r).opcode = s.opcode := rfl
@[simp] theorem emit_pc (s : State) (r) : (s.emit r).pc = s.pc := rfl
@[simp] theorem emit_regs (s : State) (r) : (s.emit r).regs = s.regs := rfl
@[simp] theorem emit_result (s : State) (r) : (s.emit r).result = r := rfl
@[simp] theorem emit_text (s : State) (r) : (s.emit r).text = render r := rfl
@[simp] theorem emit_textLen (s : State) (r) : (s.emit r).textLen = (render r).length := rfl

@[simp] theorem shows_thumb (s : State) (r t) : (s.shows r t).thumb = s.thumb := rfl
@[simp] theorem shows_opcode (s : State) (r t) : (s.shows r t).opcode = s.opcode := rfl
@[simp] theorem shows_pc (s : State) (r t) : (s.shows r t).pc = s.pc := rfl
@[simp] theorem shows_regs (s : State) (r t) : (s.shows r t).regs = s.regs := rfl
@[simp] theorem shows_result (s : State) (r t) : (s.shows r t).result = r := rfl
@[simp] theorem shows_text (s : State) (r t) : (s.shows r t).text = t := rfl
@[simp] theorem shows_textLen (s : State) (r t) : (s.shows r t).textLen = t.length := rfl

/-- A decode that writes a result shows that result's text. -/
theorem emit_eq_shows (s : State) (r : Result) : s.emit r = s.shows r (render r) := rfl

@[simp] theorem instr_setInputs (s : State) (t o p r) : (s.setInputs t o p r).instr = decode t o := rfl

@[simp] theorem instr_emit (s : State) (r : Result) : (s.emit r).instr = s.instr := rfl

/-- Only the latest result stays at the output ports. -/
@[simp] theorem emit_emit (s : State) (r q : Result) : (s.emit r).emit q = s.emit q := rfl

/-- What an emit overwrites plays no part: two states with the same inputs emit to the same state. -/
theorem emit_setInputs_congr (s u : State) (t o p r) (q : Result) :
    (s.setInputs t o p r).emit q = (u.setInputs t o p r).emit q := rfl

end Sys2Proof.Machine
end

