-- ==== Sys2Proof/Laws/Ops.lean ====
section
/-! SUPPORT. What each shared operation of the machine can do, said once: a decode answers a next state that differs from the state before in its outputs only. -/

namespace Sys2Proof.Machine

/-- The result that a form gives in a state: the decode that `exec` performs, as a plain function (R84 and the family rules). -/
def resultOf (i : Instr) (s : State) : Result :=
  match i with
  | .reservedCond => .reservedCond
  | .bx c m => .bx c m
  | .unknownMiscOther _ _ => .unknownMiscOther
  | .unknownMiscCategory _ _ => .unknownMiscCategory
  | .unknownVariousOp _ _ _ => .unknownVariousOp
  | .sub c f n d k => .dpSub c f d n k
  | .add c f n d k => .dpAdd c f d n k
  | .mov c f d k => .dpMov c f d k
  | .unknownDataProcessing _ _ => .unknownDataProcessing
  | .str c u n d o => singleTransfer s.regs c false false u n d o
  | .strb c u n d o => singleTransfer s.regs c false true u n d o
  | .ldr c u n d o => singleTransfer s.regs c true false u n d o
  | .ldrb c u n d o => singleTransfer s.regs c true true u n d o
  | .stmdb c w n l => .stmDb c n w l
  | .stmfd c w l => .stmFd c w l
  | .ldmdb c w n l => .ldmDb c n w l
  | .unknownSPLoadMultiple _ => .unknownSPLoadMultiple
  | .unknownAddressingMode _ _ => .unknownAddressingMode
  | .b c k => .b c (branchTarget s.pc k)
  | .bl c k => .bl c (branchTarget s.pc k)
  | .unknownId3x6 _ => .unknown
  | .unknownId3xC _ => .unknown
  | .unknownId3xE _ => .unknown
  | .unknownThumb _ => .unknownThumb

/-- Everything a meaning can do: it answers the next state whose outputs are its result's. -/
theorem exec_eq (i : Instr) (s : State) : exec i s = .next (s.emit (resultOf i s)) := by
  cases i <;> rfl

/-- Everything a step can do. -/
theorem step_eq (s : State) : step s = .next (s.emit (resultOf s.instr s)) := exec_eq _ _

/-- A step's next state, named. -/
theorem step_eq_next {s t : State} (h : step s = .next t) : t = s.emit (resultOf s.instr s) := by
  rw [step_eq] at h
  exact (Host.Outcome.next.inj h).symm

/-- Everything settling can do: the outputs become those of the present inputs' result. -/
theorem settle_eq (s : State) : s.settle = s.emit (resultOf s.instr s) := by
  rw [State.settle, exec_eq]
  rfl

/-- Everything a drive can do: the inputs are the ones given, the outputs those of their result. -/
theorem drive_eq (s : State) (t o p r) :
    s.drive t o p r = (s.setInputs t o p r).emit (resultOf (decode t o) (s.setInputs t o p r)) := settle_eq _

/-- A step is a settling: the inputs stay and the outputs are those of their result. -/
theorem step_eq_settle (s : State) : step s = .next s.settle := by rw [step_eq, settle_eq]

@[simp] theorem drive_thumb (s : State) (t o p r) : (s.drive t o p r).thumb = t := by simp [drive_eq]
@[simp] theorem drive_opcode (s : State) (t o p r) : (s.drive t o p r).opcode = o := by simp [drive_eq]
@[simp] theorem drive_pc (s : State) (t o p r) : (s.drive t o p r).pc = p := by simp [drive_eq]
@[simp] theorem drive_regs (s : State) (t o p r) : (s.drive t o p r).regs = r := by simp [drive_eq]
@[simp] theorem instr_drive (s : State) (t o p r) : (s.drive t o p r).instr = decode t o := by simp [drive_eq]

/-- The instruction at the ports is the decode of the path select and the word. -/
theorem instr_eq (s : State) : s.instr = decode s.thumb s.opcode := rfl

/-- Reading one register of the snapshot is indexing it. -/
theorem readSnapshot_eq (regs : Vector Word 16) (r : Reg) : readSnapshot regs r = regs[r.toFin] := rfl

theorem singleTransfer_zero (regs : Vector Word 16) (c l b u n d) :
    singleTransfer regs c l b u n d 0#12 = .sdtIndexed c l b d n := by simp [singleTransfer]

theorem singleTransfer_ne (regs : Vector Word 16) (c l b u n d) {o : BitVec 12} (h : o ≠ 0#12) :
    singleTransfer regs c l b u n d o = .sdtLiteral c l b d (displayAddress regs u n o) := by
  simp [singleTransfer, h]

end Sys2Proof.Machine
end

