-- ==== Sys2Proof/Laws/PerInstr.lean ====
section
/-! SUPPORT. The family FixedBits, one lemma per constructor: the encoded word of a well-formed form matches that form's row of the opcode map (R85), and only the 16-bit row is on the 16-bit path. -/

namespace Sys2Proof.Laws.FixedBits

/-- The encoding of a well-formed form lies on its row: mask, match and extra condition of R85. -/
def Statement (i : Instr) : Prop :=
  i.wf = true → (encode i).thumb = decide (i.row = 23) ∧ (i.row < 23 → rowMatches i.row (encode i).opcode = true)

/-- A packed word of a row's fixed fields meets the row's mask. -/
theorem mask_eq {w m p : Word} (h : ∀ i, i < 32 → (w &&& m).getLsbD i = p.getLsbD i) : (w &&& m == p) = true := by
  simpa using BitVec.eq_of_getLsbD_eq h

theorem named_of_cond (c : Cond) : (c.bits != 0b1111#4) = true := by cases c <;> rfl

theorem reservedCond : Statement .reservedCond := by
  intro _
  exact ⟨rfl, fun _ => by decide⟩

theorem bx (c : Cond) (m : Reg) : Statement (.bx c m) := by
  intro _
  refine ⟨rfl, fun _ => ?_⟩
  simp only [Instr.row, rowMatches, opcodeMap, encode, List.cons_append, List.nil_append, List.getElem?_cons_succ,
    List.getElem?_cons_zero, packVarious_cond, named_of_cond, Bool.and_true]
  apply mask_eq
  intro i hi
  simp only [packVarious, BitVec.getLsbD_append, bit1, BitVec.getLsbD_and]
  interval_cases i <;> simp

theorem unknownMiscOther (c : Cond) (op : BitVec 2) : Statement (.unknownMiscOther c op) := by
  intro hw
  refine ⟨rfl, fun _ => ?_⟩
  simp only [Instr.wf] at hw
  simp only [Instr.row, rowMatches, opcodeMap, encode, List.cons_append, List.nil_append, List.getElem?_cons_succ,
    List.getElem?_cons_zero, packVarious_cond, named_of_cond, Bool.and_true, packVarious_op, hw]
  apply mask_eq
  intro i hi
  simp only [packVarious, BitVec.getLsbD_append, bit1, BitVec.getLsbD_and]
  interval_cases i <;> simp

theorem unknownMiscCategory (c : Cond) (id4 : BitVec 4) : Statement (.unknownMiscCategory c id4) := by
  intro hw
  refine ⟨rfl, fun _ => ?_⟩
  simp only [Instr.wf] at hw
  simp only [Instr.row, rowMatches, opcodeMap, encode, List.cons_append, List.nil_append, List.getElem?_cons_succ,
    List.getElem?_cons_zero, packVarious_cond, named_of_cond, Bool.and_true, packVarious_id4, hw]
  apply mask_eq
  intro i hi
  simp only [packVarious, BitVec.getLsbD_append, bit1, BitVec.getLsbD_and]
  interval_cases i <;> simp

theorem unknownVariousOp (c : Cond) (id2 : BitVec 2) (u : Bool) : Statement (.unknownVariousOp c id2 u) := by
  intro hw
  refine ⟨rfl, fun _ => ?_⟩
  simp only [Instr.wf] at hw
  simp only [Instr.row, rowMatches, opcodeMap, encode, List.cons_append, List.nil_append, List.getElem?_cons_succ,
    List.getElem?_cons_zero, packVarious_cond, named_of_cond, Bool.and_true, packVarious_id2, packVarious_update, hw]
  apply mask_eq
  intro i hi
  simp only [packVarious, BitVec.getLsbD_append, bit1, BitVec.getLsbD_and]
  interval_cases i <;> simp

theorem sub (c : Cond) (s : Bool) (rn rd : Reg) (imm : BitVec 12) : Statement (.sub c s rn rd imm) := by
  intro _
  refine ⟨rfl, fun _ => ?_⟩
  simp only [Instr.row, rowMatches, opcodeMap, encode, List.cons_append, List.nil_append, List.getElem?_cons_succ,
    List.getElem?_cons_zero, packDataProcessing_cond, named_of_cond, Bool.and_true]
  apply mask_eq
  intro i hi
  simp only [packDataProcessing, BitVec.getLsbD_append, bit1, BitVec.getLsbD_and]
  interval_cases i <;> simp

theorem add (c : Cond) (s : Bool) (rn rd : Reg) (imm : BitVec 12) : Statement (.add c s rn rd imm) := by
  intro _
  refine ⟨rfl, fun _ => ?_⟩
  simp only [Instr.row, rowMatches, opcodeMap, encode, List.cons_append, List.nil_append, List.getElem?_cons_succ,
    List.getElem?_cons_zero, packDataProcessing_cond, named_of_cond, Bool.and_true]
  apply mask_eq
  intro i hi
  simp only [packDataProcessing, BitVec.getLsbD_append, bit1, BitVec.getLsbD_and]
  interval_cases i <;> simp

theorem mov (c : Cond) (s : Bool) (rd : Reg) (imm : BitVec 12) : Statement (.mov c s rd imm) := by
  intro _
  refine ⟨rfl, fun _ => ?_⟩
  simp only [Instr.row, rowMatches, opcodeMap, encode, List.cons_append, List.nil_append, List.getElem?_cons_succ,
    List.getElem?_cons_zero, packDataProcessing_cond, named_of_cond, Bool.and_true]
  apply mask_eq
  intro i hi
  simp only [packDataProcessing, BitVec.getLsbD_append, bit1, BitVec.getLsbD_and]
  interval_cases i <;> simp

theorem unknownDataProcessing (c : Cond) (dpop : BitVec 4) : Statement (.unknownDataProcessing c dpop) := by
  intro hw
  refine ⟨rfl, fun _ => ?_⟩
  simp only [Instr.wf] at hw
  simp only [Instr.row, rowMatches, opcodeMap, encode, List.cons_append, List.nil_append, List.getElem?_cons_succ,
    List.getElem?_cons_zero, packDataProcessing_cond, named_of_cond, Bool.and_true, Bool.true_and, packDataProcessing_dpop, hw]
  apply mask_eq
  intro i hi
  simp only [packDataProcessing, BitVec.getLsbD_append, bit1, BitVec.getLsbD_and]
  interval_cases i <;> simp

theorem str (c : Cond) (u : Bool) (rn rd : Reg) (off : BitVec 12) : Statement (.str c u rn rd off) := by
  intro _
  refine ⟨rfl, fun _ => ?_⟩
  simp only [Instr.row, rowMatches, opcodeMap, encode, List.cons_append, List.nil_append, List.getElem?_cons_succ,
    List.getElem?_cons_zero, packSingleDataTransfer_cond, named_of_cond, Bool.and_true]
  apply mask_eq
  intro i hi
  simp only [packSingleDataTransfer, BitVec.getLsbD_append, bit1, BitVec.getLsbD_and]
  interval_cases i <;> simp

theorem strb (c : Cond) (u : Bool) (rn rd : Reg) (off : BitVec 12) : Statement (.strb c u rn rd off) := by
  intro _
  refine ⟨rfl, fun _ => ?_⟩
  simp only [Instr.row, rowMatches, opcodeMap, encode, List.cons_append, List.nil_append, List.getElem?_cons_succ,
    List.getElem?_cons_zero, packSingleDataTransfer_cond, named_of_cond, Bool.and_true]
  apply mask_eq
  intro i hi
  simp only [packSingleDataTransfer, BitVec.getLsbD_append, bit1, BitVec.getLsbD_and]
  interval_cases i <;> simp

theorem ldr (c : Cond) (u : Bool) (rn rd : Reg) (off : BitVec 12) : Statement (.ldr c u rn rd off) := by
  intro _
  refine ⟨rfl, fun _ => ?_⟩
  simp only [Instr.row, rowMatches, opcodeMap, encode, List.cons_append, List.nil_append, List.getElem?_cons_succ,
    List.getElem?_cons_zero, packSingleDataTransfer_cond, named_of_cond, Bool.and_true]
  apply mask_eq
  intro i hi
  simp only [packSingleDataTransfer, BitVec.getLsbD_append, bit1, BitVec.getLsbD_and]
  interval_cases i <;> simp

theorem ldrb (c : Cond) (u : Bool) (rn rd : Reg) (off : BitVec 12) : Statement (.ldrb c u rn rd off) := by
  intro _
  refine ⟨rfl, fun _ => ?_⟩
  simp only [Instr.row, rowMatches, opcodeMap, encode, List.cons_append, List.nil_append, List.getElem?_cons_succ,
    List.getElem?_cons_zero, packSingleDataTransfer_cond, named_of_cond, Bool.and_true]
  apply mask_eq
  intro i hi
  simp only [packSingleDataTransfer, BitVec.getLsbD_append, bit1, BitVec.getLsbD_and]
  interval_cases i <;> simp

theorem stmdb (c : Cond) (w : Bool) (rn : Reg) (list : BitVec 16) : Statement (.stmdb c w rn list) := by
  intro hw
  refine ⟨rfl, fun _ => ?_⟩
  simp only [Instr.wf] at hw
  simp only [Instr.row, rowMatches, opcodeMap, encode, List.cons_append, List.nil_append, List.getElem?_cons_succ,
    List.getElem?_cons_zero, packBlockDataTransfer_cond, named_of_cond, Bool.and_true, packBlockDataTransfer_rn, hw]
  apply mask_eq
  intro i hi
  simp only [packBlockDataTransfer, BitVec.getLsbD_append, bit1, BitVec.getLsbD_and]
  interval_cases i <;> simp

theorem stmfd (c : Cond) (w : Bool) (list : BitVec 16) : Statement (.stmfd c w list) := by
  intro _
  refine ⟨rfl, fun _ => ?_⟩
  simp only [Instr.row, rowMatches, opcodeMap, encode, List.cons_append, List.nil_append, List.getElem?_cons_succ,
    List.getElem?_cons_zero, packBlockDataTransfer_cond, named_of_cond, Bool.and_true]
  apply mask_eq
  intro i hi
  simp only [packBlockDataTransfer, BitVec.getLsbD_append, bit1, BitVec.getLsbD_and]
  interval_cases i <;> simp

theorem ldmdb (c : Cond) (w : Bool) (rn : Reg) (list : BitVec 16) : Statement (.ldmdb c w rn list) := by
  intro hw
  refine ⟨rfl, fun _ => ?_⟩
  simp only [Instr.wf] at hw
  simp only [Instr.row, rowMatches, opcodeMap, encode, List.cons_append, List.nil_append, List.getElem?_cons_succ,
    List.getElem?_cons_zero, packBlockDataTransfer_cond, named_of_cond, Bool.and_true, packBlockDataTransfer_rn, hw]
  apply mask_eq
  intro i hi
  simp only [packBlockDataTransfer, BitVec.getLsbD_append, bit1, BitVec.getLsbD_and]
  interval_cases i <;> simp

theorem unknownSPLoadMultiple (c : Cond) : Statement (.unknownSPLoadMultiple c) := by
  intro _
  refine ⟨rfl, fun _ => ?_⟩
  simp only [Instr.row, rowMatches, opcodeMap, encode, List.cons_append, List.nil_append, List.getElem?_cons_succ,
    List.getElem?_cons_zero, packBlockDataTransfer_cond, named_of_cond, Bool.and_true]
  apply mask_eq
  intro i hi
  simp only [packBlockDataTransfer, BitVec.getLsbD_append, bit1, BitVec.getLsbD_and]
  interval_cases i <;> simp

theorem unknownAddressingMode (c : Cond) (mode : BitVec 2) : Statement (.unknownAddressingMode c mode) := by
  intro hw
  refine ⟨rfl, fun _ => ?_⟩
  simp only [Instr.wf] at hw
  simp only [Instr.row, rowMatches, opcodeMap, encode, List.cons_append, List.nil_append, List.getElem?_cons_succ,
    List.getElem?_cons_zero, packBlockDataTransfer_cond, named_of_cond, Bool.and_true, packBlockDataTransfer_mode, hw]
  apply mask_eq
  intro i hi
  simp only [packBlockDataTransfer, BitVec.getLsbD_append, bit1, BitVec.getLsbD_and]
  interval_cases i <;> simp

theorem b (c : Cond) (imm : BitVec 24) : Statement (.b c imm) := by
  intro _
  refine ⟨rfl, fun _ => ?_⟩
  simp only [Instr.row, rowMatches, opcodeMap, encode, List.cons_append, List.nil_append, List.getElem?_cons_succ,
    List.getElem?_cons_zero, packBranch_cond, named_of_cond, Bool.and_true]
  apply mask_eq
  intro i hi
  simp only [packBranch, BitVec.getLsbD_append, bit1, BitVec.getLsbD_and]
  interval_cases i <;> simp

theorem bl (c : Cond) (imm : BitVec 24) : Statement (.bl c imm) := by
  intro _
  refine ⟨rfl, fun _ => ?_⟩
  simp only [Instr.row, rowMatches, opcodeMap, encode, List.cons_append, List.nil_append, List.getElem?_cons_succ,
    List.getElem?_cons_zero, packBranch_cond, named_of_cond, Bool.and_true]
  apply mask_eq
  intro i hi
  simp only [packBranch, BitVec.getLsbD_append, bit1, BitVec.getLsbD_and]
  interval_cases i <;> simp

theorem unknownId3x6 (c : Cond) : Statement (.unknownId3x6 c) := by
  intro _
  refine ⟨rfl, fun _ => ?_⟩
  simp only [Instr.row, rowMatches, opcodeMap, encode, List.cons_append, List.nil_append, List.getElem?_cons_succ,
    List.getElem?_cons_zero, packUnknown_cond, named_of_cond, Bool.and_true]
  apply mask_eq
  intro i hi
  simp only [packUnknown, BitVec.getLsbD_append, BitVec.getLsbD_and]
  interval_cases i <;> simp

theorem unknownId3xC (c : Cond) : Statement (.unknownId3xC c) := by
  intro _
  refine ⟨rfl, fun _ => ?_⟩
  simp only [Instr.row, rowMatches, opcodeMap, encode, List.cons_append, List.nil_append, List.getElem?_cons_succ,
    List.getElem?_cons_zero, packUnknown_cond, named_of_cond, Bool.and_true]
  apply mask_eq
  intro i hi
  simp only [packUnknown, BitVec.getLsbD_append, BitVec.getLsbD_and]
  interval_cases i <;> simp

theorem unknownId3xE (c : Cond) : Statement (.unknownId3xE c) := by
  intro _
  refine ⟨rfl, fun _ => ?_⟩
  simp only [Instr.row, rowMatches, opcodeMap, encode, List.cons_append, List.nil_append, List.getElem?_cons_succ,
    List.getElem?_cons_zero, packUnknown_cond, named_of_cond, Bool.and_true]
  apply mask_eq
  intro i hi
  simp only [packUnknown, BitVec.getLsbD_append, BitVec.getLsbD_and]
  interval_cases i <;> simp

theorem unknownThumb (h : BitVec 16) : Statement (.unknownThumb h) :=
  fun _ => ⟨rfl, fun hr => by simp [Instr.row] at hr⟩

end Sys2Proof.Laws.FixedBits
end

