-- ==== Sys2Proof/Laws/Text.lean ====
section
/-! SUPPORT. The small lemmas of the shared units: names, suffixes, letters and the joining of lists. -/

namespace Sys2Proof.Machine

/-- The mask of the RegisterNamer changes nothing on a register operand (R112). -/
theorem name_eq_nameTable (r : Reg) : name r = nameTable r := by simp [name, registerNamer]

/-- The RegisterNamer looks at the low four bits of an index only (R112). -/
theorem registerNamer_mod (i : Nat) : registerNamer (i % 16) = registerNamer i := by
  unfold registerNamer
  congr 1
  apply BitVec.eq_of_toNat_eq
  simp

theorem name_length (r : Reg) : (name r).length = 2 ∨ (name r).length = 3 := by revert r; decide

theorem suffix_length (c : Cond) : (suffix c).length = if c = .al then 0 else 2 := by cases c <;> decide

theorem sfx_length (s : Bool) : (sfx s).length = s.toNat := by cases s <;> decide

theorem bsfx_length (b : Bool) : (bsfx b).length = b.toNat := by cases b <;> decide

theorem wb_length (w : Bool) : (wb w).length = w.toNat := by cases w <;> decide

/-- The ConditionDecoder gives INVALID for the reserved code and for no other (R117). -/
theorem conditionDecoder_eq_none (c : BitVec 4) : conditionDecoder c = none ↔ c = 0b1111#4 := by revert c; decide

@[simp] theorem joinComma_nil : joinComma [] = [] := rfl
@[simp] theorem joinComma_one (t : Text) : joinComma [t] = t := rfl
@[simp] theorem joinComma_cons (t u : Text) (ts : List Text) :
    joinComma (t :: u :: ts) = t ++ ascii "," ++ joinComma (u :: ts) := rfl

/-- A register is listed exactly when its bit of the mask is set (R82). -/
theorem mem_listed (m : BitVec 16) (r : Reg) : r ∈ listed m ↔ m.getLsbD r.toNat = true := by
  have hr := r.isLt
  simp only [listed, List.mem_map, List.mem_filter, List.mem_range]
  constructor
  · rintro ⟨i, ⟨hi, hm⟩, rfl⟩
    rwa [BitVec.toNat_ofNat, Nat.mod_eq_of_lt (by omega)]
  · intro h
    exact ⟨r.toNat, ⟨by omega, h⟩, by simp⟩

/-- Stripping keeps at least one digit of a digit list that has one (R121). -/
theorem stripZeros_ne_nil : ∀ ds : List (BitVec 4), ds ≠ [] → stripZeros ds ≠ []
  | [d], _ => by simp [stripZeros]
  | d :: e :: ds, _ => by
    unfold stripZeros
    split
    · exact stripZeros_ne_nil (e :: ds) (by simp)
    · simp

theorem stripZeros_length_le : ∀ ds : List (BitVec 4), (stripZeros ds).length ≤ ds.length
  | [] => by simp [stripZeros]
  | [d] => by simp [stripZeros]
  | d :: e :: ds => by
    unfold stripZeros
    split
    · exact (stripZeros_length_le (e :: ds)).trans (by simp)
    · simp

end Sys2Proof.Machine
end

