-- ==== Sys2Proof/Tests/Slice0.lean ====
section
/-! SUPPORT. Small tests: ill-formed forms are refused, words written out from the encoding tables decode to their forms, one decode per form against the texts of 95_test_vectors.md, and a witness for the hypotheses of every statement that has some. -/

open Sys2Proof Sys2Proof.Machine

namespace Sys2Proof.Tests

/-! ### WellFormed: each check refuses an ill-formed term -/

theorem test_wf_refuses_misc_other_bx_op : (Instr.unknownMiscOther .al 0b01#2).wf = false := by decide
theorem test_wf_refuses_misc_category_bx_id4 : (Instr.unknownMiscCategory .al 0b0001#4).wf = false := by decide
theorem test_wf_refuses_various_misc_group : (Instr.unknownVariousOp .al 0b10#2 false).wf = false := by decide
theorem test_wf_refuses_named_sub_opcodes :
    (Instr.unknownDataProcessing .al 0b0010#4).wf = false ∧ (Instr.unknownDataProcessing .al 0b0100#4).wf = false ∧
    (Instr.unknownDataProcessing .al 0b1101#4).wf = false := by decide
theorem test_wf_refuses_stmdb_on_sp : (Instr.stmdb .al true 13#4 0x0030#16).wf = false := by decide
theorem test_wf_refuses_ldmdb_on_sp : (Instr.ldmdb .al true 13#4 0x0030#16).wf = false := by decide
theorem test_wf_refuses_db_mode : (Instr.unknownAddressingMode .al 0b10#2).wf = false := by decide

/-! ### Decode: words written out field by field from R71 to R78 -/

/-- cond 1111, the other bits of a BX (R141). -/
theorem test_decode_reserved : decode false 0b1111_000_10_01_0_111111111111_0001_0011#32 = .reservedCond := by decide
/-- cond AL, id3 000, id2 10, op 01, update 0, bits 19:8 ones, id4 0001, Rm 3 (R73, R145). -/
theorem test_decode_bx : decode false 0b1110_000_10_01_0_111111111111_0001_0011#32 = .bx .al 3#4 := by decide
/-- The three Various sentinels: op 11, then id4 1001, then update 1 (R146 to R148). -/
theorem test_decode_various_sentinels :
    decode false 0b1110_000_10_11_0_111111111111_0001_0011#32 = .unknownMiscOther .al 0b11#2 ∧
    decode false 0b1110_000_10_01_0_111111111111_1001_0011#32 = .unknownMiscCategory .al 0b1001#4 ∧
    decode false 0b1110_000_10_01_1_111111111111_0001_0011#32 = .unknownVariousOp .al 0b10#2 true := by decide
/-- cond, 001, dpop, S, Rn, Rd, imm12 (R74). -/
theorem test_decode_data_processing :
    decode false 0b1110_001_0010_0_0001_0010_001101000101#32 = .sub .al false 1#4 2#4 0x345#12 ∧
    decode false 0b0001_001_0100_1_0011_0010_000011111111#32 = .add .ne true 3#4 2#4 0x0FF#12 ∧
    decode false 0b0000_001_1101_1_0101_0000_000000000101#32 = .mov .eq true 0#4 0x005#12 ∧
    decode false 0b1110_001_1010_1_0000_0000_000000000000#32 = .unknownDataProcessing .al 0b1010#4 := by decide
/-- cond, 010, bit 24, U, B, bit 21, L, Rn, Rd, off12 (R75). -/
theorem test_decode_single_transfer :
    decode false 0b1110_010_1_1_0_0_0_0000_0001_000000000100#32 = .str .al true 0#4 1#4 0x004#12 ∧
    decode false 0b1110_010_1_0_1_0_0_0011_0010_000000000100#32 = .strb .al false 3#4 2#4 0x004#12 ∧
    decode false 0b0001_010_0_1_0_1_1_0000_0001_111111111111#32 = .ldr .ne true 0#4 1#4 0xFFF#12 ∧
    decode false 0b1010_010_1_0_1_0_1_0000_1110_111111111111#32 = .ldrb .ge false 0#4 14#4 0xFFF#12 := by decide
/-- cond, 100, mode, bit 22, W, L, Rn, list (R76). -/
theorem test_decode_block_transfer :
    decode false 0b1110_100_10_0_1_0_0000_0000000000000110#32 = .stmdb .al true 0#4 0x0006#16 ∧
    decode false 0b1110_100_10_1_0_0_1101_0000000000110000#32 = .stmfd .al false 0x0030#16 ∧
    decode false 0b1110_100_10_0_0_1_1011_1010100000010000#32 = .ldmdb .al false 11#4 0xA810#16 ∧
    decode false 0b1110_100_10_0_1_1_1101_1000000000000000#32 = .unknownSPLoadMultiple .al ∧
    decode false 0b1110_100_01_0_1_1_1101_1000000000110000#32 = .unknownAddressingMode .al 0b01#2 := by decide
/-- cond, 101, Lk, imm24 (R77). -/
theorem test_decode_branch :
    decode false 0b0000_101_0_000000000000000000010000#32 = .b .eq 0x000010#24 ∧
    decode false 0b1101_101_1_111111111111111111110000#32 = .bl .le 0xFFFFF0#24 := by decide
/-- cond and one of the three id3 values of no category (R72, R149). -/
theorem test_decode_no_category :
    decode false 0b1110_011_1100100010010000000000011#32 = .unknownId3x6 .al ∧
    decode false 0b0101_110_0000000000000000000000000#32 = .unknownId3xC .pl ∧
    decode false 0b0000_111_0000000000000000000000000#32 = .unknownId3xE .eq := by decide
/-- The 16-bit path does not look at the condition bits (R230). -/
theorem test_decode_thumb : decode true 0xF000F000#32 = .unknownThumb 0xF000#16 := by decide
/-- The table's rows: 32 bits are a word, 16 bits a halfword. -/
theorem test_decode_table_word :
    decodeTableWord 32 0x01200010 = some (.bx .eq 0#4) ∧ decodeTableWord 16 0x4770 = some (.unknownThumb 0x4770#16) := by decide

/-! ### One decode per form, against 95_test_vectors.md -/

/-- A snapshot of zeros but for the listed registers. -/
def snapshot (known : List (Nat × Word)) : Vector Word 16 :=
  Vector.ofFn fun i => ((known.find? fun p => p.1 == i.val).map Prod.snd).getD 0#32

/-- A word on the 32-bit path at a fetch address. -/
def row (word pc : Word) (known : List (Nat × Word)) : State := State.reset.drive false word pc (snapshot known)

/-- The text a step shows. -/
def shown (s : State) : Text :=
  match step s with
  | .next t => t.text
  | .fault _ => []
  | .refused _ => []

/-- Sections 1 (S1, S5) and 2.3. -/
theorem test_text_bx : shown (row 0xE12FFF13#32 0 []) = ascii "BX R3" ∧ shown (row 0x012FFF1E#32 0 []) = ascii "BXEQ LR" := by decide
theorem test_text_reserved : shown (row 0xF12FFF13#32 0 []) = ascii "0b1111 condition" := by decide
theorem test_text_misc_other : shown (row 0xE16F0F11#32 0 []) = ascii "unknown misc other" := by decide
theorem test_text_misc_category : shown (row 0xE12FFF93#32 0 []) = ascii "unknown misc category" := by decide
theorem test_text_various_op : shown (row 0xE13FFF13#32 0 []) = ascii "unknown various op" := by decide
/-- Section 2.4. -/
theorem test_text_sub : shown (row 0xE2412345#32 0 []) = ascii "SUB R2, R1, #0x345" ∧ shown (row 0xE2500000#32 0 []) = ascii "SUBS R0, R0, #0x0" := by decide
theorem test_text_add : shown (row 0x129320FF#32 0 []) = ascii "ADDSNE R2, R3, #0xff" := by decide
theorem test_text_mov : shown (row 0x03B00005#32 0 []) = ascii "MOVSEQ R0, #0x5" ∧ shown (row 0xE3A00C01#32 0 []) = ascii "MOV R0, #0xc01" := by decide
theorem test_text_other_sub_opcode : shown (row 0xE3500000#32 0 []) = ascii "Unknown data processing" := by decide
/-- Section 2.5. -/
theorem test_text_str : shown (row 0xE5001004#32 0 [(0, 0x1000#32)]) = ascii "STR R1, =0xffc" ∧ shown (row 0xE5801000#32 0 []) = ascii "STR R1, [R0]" := by decide
theorem test_text_strb : shown (row 0xE5432004#32 0 [(3, 0x2000#32)]) = ascii "STRB R2, =0x1ffc" := by decide
theorem test_text_ldr_base_pc : shown (row 0xE51FF004#32 0x1000 [(15, 0x8000#32)]) = ascii "LDR PC, =0x8004" := by decide
theorem test_text_ldr_wraps : shown (row 0xE5111011#32 0 [(1, 0x10#32)]) = ascii "LDR R1, =0xffffffff" := by decide
theorem test_text_ldrb : shown (row 0xA5D0EFFF#32 0 [(0, 0x1000#32)]) = ascii "LDRBGE LR, =0x1fff" ∧ shown (row 0x05D10000#32 0 []) = ascii "LDRBEQ R0, [R1]" := by decide
/-- Section 2.6; the braces are the bytes 0x7B and 0x7D. -/
theorem test_text_stmdb : shown (row 0xE9200001#32 0 []) = ascii "STMDB R0!, " ++ [0x7B#8] ++ ascii "R0" ++ [0x7D#8] ∧
    shown (row 0xE9000000#32 0 []) = ascii "STMDB R0, " ++ [0x7B#8, 0x7D#8] := by decide
theorem test_text_stmfd : shown (row 0xE92D0030#32 0 []) = ascii "STMFD SP!, " ++ [0x7B#8] ++ ascii "R4,R5" ++ [0x7D#8] := by decide
theorem test_text_ldmdb : shown (row 0xE91BA810#32 0 []) = ascii "LDMDB R11, " ++ [0x7B#8] ++ ascii "R4,R11,SP,PC" ++ [0x7D#8] := by decide
theorem test_text_sp_load_multiple : shown (row 0xE93D8000#32 0 []) = ascii "unknown SP load multiple" := by decide
theorem test_text_addressing_mode : shown (row 0xE8BD8030#32 0 []) = ascii "Unknown addressing mode" := by decide
/-- Section 2.7. -/
theorem test_text_b : shown (row 0xEA800000#32 0x0 []) = ascii "B 0xfe000008" ∧ shown (row 0xEA000000#32 0xFFFFFFF8#32 []) = ascii "B 0x0" := by decide
theorem test_text_bl : shown (row 0xDBFFFFF0#32 0x100 []) = ascii "BLLE 0xc8" := by decide
/-- Section 2.8. -/
theorem test_text_no_category : shown (row 0xE7912003#32 0 []) = ascii "Unknown" ∧ shown (row 0xEC000000#32 0 []) = ascii "Unknown" ∧
    shown (row 0x0E000000#32 0 []) = ascii "Unknown" := by decide
theorem test_text_thumb : shown (State.reset.withFetchWord 16 0x4770) = ascii "unknown thumb instruction" := by decide

/-- A presented word shows at once, with no step (R270). -/
theorem test_outputs_follow_drive :
    (State.reset.withFetchWord 32 0xE12FFF13).text = ascii "BX R3" ∧ (State.reset.withFetchWord 32 0xE12FFF13).textLen = 5 := by decide

/-! ### Units (the examples and corner cases of 40_lookup_units.md) -/

theorem test_extract_unsigned : extractUnsigned 0xE92D0030#32 16 4 = 0xD#4 := by decide
theorem test_extract_signed : extractSigned 0xEAFFFFFE#32 0 24 = 0xFFFFFFFE#32 ∧ extractSigned 0xEA800000#32 0 24 = 0xFF800000#32 := by decide
theorem test_hex : hex 0x1008#32 = ascii "0x1008" ∧ hex 0#32 = ascii "0x0" ∧ hex 0xFFFFFFFF#32 = ascii "0xffffffff" := by decide
theorem test_reglist : reglist 0xC001#16 = ascii "R0,LR,PC" ∧ reglist 0#16 = [] := by decide

/-! ### Witnesses: states and operands that meet the hypotheses of each statement -/

theorem witness_DecodeEncodeRoundTrip :
    (Instr.stmdb .al true 15#4 0xFFFF#16).wf = true ∧ (Instr.unknownVariousOp .eq 0b10#2 true).wf = true ∧
    (Instr.unknownDataProcessing .le 0b1111#4).wf = true := by decide
theorem witness_UnreadBitsDoNotMatter : (row 0xE12FFF13#32 0 []).thumb = false := rfl
theorem witness_StepRunsDecodedInstruction :
    decode (row 0xE12FFF13#32 0 []).thumb (row 0xE12FFF13#32 0 []).opcode = .bx .al 3#4 ∧ (Instr.bx .al 3#4).wf = true := by decide
theorem witness_ExecChangesOutputsOnly :
    exec (.ldr .al true 15#4 0#4 8#12) (row 0#32 0 [(15, 0x1000#32)]) =
      .next ((row 0#32 0 [(15, 0x1000#32)]).shows (.sdtLiteral .al true false 0#4 0x1010#32) (ascii "LDR R0, =0x1010")) := by rfl
theorem witness_StepKeepsOutputsGood :
    ((row 0xEA000000#32 0x1000 []).shows (.bx .al 3#4) (ascii "BX R3")).OutputsGood ∧
    step ((row 0xEA000000#32 0x1000 []).shows (.bx .al 3#4) (ascii "BX R3")) =
      .next ((row 0xEA000000#32 0x1000 []).shows (.b .al 0x1008#32) (ascii "B 0x1008")) :=
  ⟨⟨rfl, rfl, rfl, by decide, by decide, by decide⟩, rfl⟩
theorem witness_StepAndDriveKeepOutputsSettled :
    (row 0xEA000000#32 0x1000 []).Settled ∧ step (row 0xEA000000#32 0x1000 []) = .next (row 0xEA000000#32 0x1000 []) :=
  ⟨⟨by decide, by decide, by decide⟩, rfl⟩
theorem witness_OutputsFollowInputsAtEveryMoment :
    Reachable State.reset ∧ Reachable (row 0xE12FFF13#32 0 []) ∧ (row 0xE12FFF13#32 0 []).text = ascii "BX R3" :=
  ⟨.powerUp, .drive .powerUp _ _ _ _, by decide⟩
theorem witness_FacadeIsTotalDeterministicAndRejectsReserved :
    let s := row 0xEA000000#32 0x1000 []
    let t := s.shows .unknown (ascii "Unknown")
    s.thumb = t.thumb ∧ s.opcode = t.opcode ∧ s.pc = t.pc ∧ s.regs = t.regs ∧ s.text ≠ t.text ∧
    (row 0xFFFFFFFF#32 0 []).thumb = false ∧ (row 0xFFFFFFFF#32 0 []).opcode = 0b1111#4 ++ 0xFFFFFFF#28 :=
  ⟨rfl, rfl, rfl, rfl, by decide, rfl, by decide⟩
theorem witness_RepeatedDecodeIsStable :
    step (row 0xEB000000#32 0x1000 []) =
      .next ((row 0xEB000000#32 0x1000 []).shows (.bl .al 0x1008#32) (ascii "BL 0x1008")) := by rfl
/-- First clause: a single transfer at offset zero and a word of another category; second clause: one register other than the base changed. -/
theorem witness_SnapshotReadOnlyAtLiteralBase :
    ¬ ((row 0xE5801000#32 0 []).InCategory 0b010#3 ∧ (row 0xE5801000#32 0 []).opcode.extractLsb' 0 12 ≠ 0#12) ∧
    ¬ ((row 0xE12FFF13#32 0 []).InCategory 0b010#3 ∧ (row 0xE12FFF13#32 0 []).opcode.extractLsb' 0 12 ≠ 0#12) ∧
    (let s := row 0xE59F0008#32 0 [(15, 0x1000#32)]
     (snapshot [(15, 0x1000#32), (0, 5#32)])[(s.opcode.extractLsb' 16 4).toFin] = s.regs[(s.opcode.extractLsb' 16 4).toFin]) := by
  refine ⟨?_, ?_, by decide⟩
  · rintro ⟨-, h⟩
    exact h (by decide)
  · rintro ⟨⟨-, -, h⟩, -⟩
    exact absurd h (by decide)
theorem witness_LiteralBaseIsRead :
    let s := row 0xE59F0008#32 0 [(15, 0x1000#32)]
    s.InCategory 0b010#3 ∧ s.opcode.extractLsb' 0 12 ≠ 0#12 ∧
    (snapshot [])[(s.opcode.extractLsb' 16 4).toFin] ≠ s.regs[(s.opcode.extractLsb' 16 4).toFin] ∧
    step s = .next (s.shows (.sdtLiteral .al true false 0#4 0x1010#32) (ascii "LDR R0, =0x1010")) ∧
    step { s with regs := snapshot [] } =
      .next ({ s with regs := snapshot [] }.shows (.sdtLiteral .al true false 0#4 0x10#32) (ascii "LDR R0, =0x10")) :=
  ⟨⟨rfl, by decide, by decide⟩, by decide, by decide, rfl, rfl⟩
theorem witness_FetchAddressReadOnlyByBranch : ¬ (row 0xE59F0008#32 0x1000 []).InCategory 0b101#3 := by
  rintro ⟨-, -, h⟩
  exact absurd h (by decide)
theorem witness_ReservedConditionShowsSentinel :
    (row 0xF0000000#32 0 []).thumb = false ∧ (row 0xF0000000#32 0 []).opcode.extractLsb' 28 4 = 0b1111#4 ∧
    (row 0xFFFFFFFF#32 0 []).opcode.extractLsb' 28 4 = 0b1111#4 := by decide
theorem witness_BranchExchangeNamesItsRegister :
    (row 0xE12FFF1F#32 0 []).Holds .al 0x0FF000F0#32 0x01200010#32 := ⟨rfl, by decide, by decide⟩
theorem witness_VariousSentinelsNameTheFailedStep :
    ((row 0xE13FFF13#32 0 []).Holds .al 0x0E000000#32 0x00000000#32 ∧
      ¬ ((row 0xE13FFF13#32 0 []).opcode.extractLsb' 23 2 = 0b10#2 ∧ (row 0xE13FFF13#32 0 []).opcode.getLsbD 20 = false)) ∧
    ((row 0xE12FFF03#32 0 []).Holds .al 0x0F900000#32 0x01000000#32 ∧
      (row 0xE12FFF03#32 0 []).opcode.extractLsb' 4 4 ≠ 0b0001#4) ∧
    ((row 0xE10FFF13#32 0 []).Holds .al 0x0F9000F0#32 0x01000010#32 ∧
      (row 0xE10FFF13#32 0 []).opcode.extractLsb' 21 2 ≠ 0b01#2) :=
  ⟨⟨⟨rfl, by decide, by decide⟩, by decide⟩, ⟨⟨rfl, by decide, by decide⟩, by decide⟩, ⟨⟨rfl, by decide, by decide⟩, by decide⟩⟩
theorem witness_NoCategoryShowsUnknown :
    (row 0xE7912003#32 0 []).Holds .al 0x0E000000#32 0x06000000#32 ∧ (row 0xEC000000#32 0 []).Holds .al 0x0E000000#32 0x0C000000#32 ∧
    (row 0x0E000000#32 0 []).Holds .eq 0x0E000000#32 0x0E000000#32 :=
  ⟨⟨rfl, by decide, by decide⟩, ⟨rfl, by decide, by decide⟩, ⟨rfl, by decide, by decide⟩⟩
theorem witness_SubtractShowsThreeOperands :
    (row 0xE24FF004#32 0 []).Holds .al 0x0FE00000#32 0x02400000#32 := ⟨rfl, by decide, by decide⟩
theorem witness_AddShowsThreeOperands :
    (row 0x52811001#32 0 []).Holds .pl 0x0FE00000#32 0x02800000#32 := ⟨rfl, by decide, by decide⟩
theorem witness_MoveShowsTwoOperands :
    (row 0xE3AF0001#32 0 []).Holds .al 0x0FE00000#32 0x03A00000#32 := ⟨rfl, by decide, by decide⟩
theorem witness_OtherSubOpcodesShowSentinel :
    (row 0xE3E12345#32 0 []).Holds .al 0x0E000000#32 0x02000000#32 ∧ (row 0xE3E12345#32 0 []).opcode.extractLsb' 21 4 ≠ 0b0010#4 ∧
    (row 0xE3E12345#32 0 []).opcode.extractLsb' 21 4 ≠ 0b0100#4 ∧ (row 0xE3E12345#32 0 []).opcode.extractLsb' 21 4 ≠ 0b1101#4 :=
  ⟨⟨rfl, by decide, by decide⟩, by decide, by decide, by decide⟩
theorem witness_nonzero_offset : 0xFFF#12 ≠ 0#12 := by decide
theorem witness_StoreWordShowsItsOperand :
    (row 0xE4A01004#32 0 []).Holds .al 0x0E500000#32 0x04000000#32 := ⟨rfl, by decide, by decide⟩
theorem witness_StoreByteShowsItsOperand :
    (row 0xE5C01000#32 0 []).Holds .al 0x0E500000#32 0x04400000#32 := ⟨rfl, by decide, by decide⟩
theorem witness_LoadWordShowsItsOperand :
    (row 0xE59FF004#32 0 []).Holds .al 0x0E500000#32 0x04100000#32 := ⟨rfl, by decide, by decide⟩
theorem witness_LoadByteShowsItsOperand :
    (row 0xE5D01000#32 0 []).Holds .al 0x0E500000#32 0x04500000#32 := ⟨rfl, by decide, by decide⟩
theorem witness_StoreMultipleShowsBaseAndList :
    (row 0xE92FFFFF#32 0 []).Holds .al 0x0F900000#32 0x09000000#32 ∧ (row 0xE92FFFFF#32 0 []).opcode.extractLsb' 16 4 ≠ 13#4 :=
  ⟨⟨rfl, by decide, by decide⟩, by decide⟩
theorem witness_StackStoreShowsFullDescending :
    (row 0xE94D0030#32 0 []).Holds .al 0x0F9F0000#32 0x090D0000#32 := ⟨rfl, by decide, by decide⟩
theorem witness_LoadMultipleShowsBaseAndList :
    (row 0x093CFFFF#32 0 []).Holds .eq 0x0F900000#32 0x09100000#32 ∧ (row 0x093CFFFF#32 0 []).opcode.extractLsb' 16 4 ≠ 13#4 :=
  ⟨⟨rfl, by decide, by decide⟩, by decide⟩
theorem witness_BlockSentinelsFollowCheckOrder :
    (row 0xE93D8000#32 0 []).Holds .al 0x0F9F0000#32 0x091D0000#32 ∧
    ((row 0xE8BD8030#32 0 []).Holds .al 0x0E000000#32 0x08000000#32 ∧ (row 0xE8BD8030#32 0 []).opcode.extractLsb' 23 2 ≠ 0b10#2) :=
  ⟨⟨rfl, by decide, by decide⟩, ⟨rfl, by decide, by decide⟩, by decide⟩
theorem witness_BranchShowsItsTarget :
    (row 0xEAFFFFFE#32 0x1000 []).Holds .al 0x0F000000#32 0x0A000000#32 := ⟨rfl, by decide, by decide⟩
theorem witness_BranchLinkShowsItsTarget :
    (row 0xBB000001#32 0x100 []).Holds .lt 0x0F000000#32 0x0B000000#32 := ⟨rfl, by decide, by decide⟩
theorem witness_ThumbPathShowsSentinel : (State.reset.withFetchWord 16 0x4770).thumb = true := by decide
theorem witness_BitFieldReadsSlices : 0 + 24 ≤ 32 ∧ 28 + 4 ≤ 32 ∧ 32 + 0 ≤ 32 := by decide
theorem witness_RegisterNamesAreDistinct : (12#4).toNat < 13 ∧ registerNamer 19 = registerNamer 3 := by decide
theorem witness_HexShowsTheNumber : ((hex 0#32).drop 2).head? = some 0x30#8 := by decide
theorem witness_RegisterListDeterminesMask : reglist 0x0030#16 = reglist 0x0030#16 := rfl
theorem witness_LongestTextIs66Bytes :
    (Result.bl .eq 0#32).isBlock = false ∧ Result.unknownThumb.isSentinel = true ∧
    (Result.sdtIndexed .eq true true 10#4 11#4).isDataOrSingle = true := by decide
theorem witness_SentinelTextsAreDistinct :
    Result.unknown.isSentinel = true ∧ render .unknown = render .unknown := ⟨rfl, rfl⟩
theorem witness_TextDeterminesResult : render (.bx .al 3#4) = render (.bx .al 3#4) := rfl
theorem witness_SystemWordsShowSentinels : State.reset.thumb = false := rfl

end Sys2Proof.Tests
end

section
/-! PROOFS. The machine refines the tree of R84: wrapping arithmetic equals exact arithmetic narrowed once, each category's decoder followed by its meaning equals the tree's arm, and the two dispatches agree. -/

namespace Sys2Proof.Machine

/-! ### Shown numbers: the wrapping computation and the exact one -/

/-- R220: the sums modulo 2^32 give the exact target, narrowed. -/
theorem branchTarget_eq_targetOf (pc : Word) (imm24 : BitVec 24) : branchTarget pc imm24 = targetOf pc imm24 := by
  have hfield : sext imm24 <<< 2 = BitVec.ofInt 32 (4 * imm24.toInt) := by
    rw [BitVec.shiftLeft_eq_mul_twoPow, BitVec.mul_comm, BitVec.ofInt_mul]
    rfl
  simp [branchTarget, targetOf, pcReadOffset, hfield, BitVec.ofInt_add]

theorem baseValue_eq_ofInt (regs : Vector Word 16) (rn : Reg) :
    baseValue regs rn = BitVec.ofInt 32 ((regs[rn.toFin]).toNat + (if rn = 15#4 then 8 else 0)) := by
  unfold baseValue
  split <;> simp [readSnapshot_eq, pcReadOffset, BitVec.ofInt_add]

/-- R182: the sum or difference modulo 2^32 gives the exact display address, narrowed. -/
theorem displayAddress_eq_addressOf (regs : Vector Word 16) (u : Bool) (rn : Reg) (off12 : BitVec 12) :
    displayAddress regs u rn off12 = addressOf regs u rn off12 := by
  have hoff : zext off12 = BitVec.ofInt 32 off12.toNat := by simp [zext]
  unfold displayAddress addressOf
  rw [baseValue_eq_ofInt, hoff]
  cases u with
  | false => simp [Int.sub_eq_add_neg, BitVec.sub_eq_add_neg, BitVec.ofInt_add, BitVec.ofInt_neg]
  | true => simp [BitVec.ofInt_add]

/-! ### The arms of the tree, one lemma per arm -/

theorem facade_thumb (w pc : Word) (regs : Vector Word 16) : facade true w pc regs = .unknownThumb := rfl

theorem facade_reserved {w : Word} (pc : Word) (regs : Vector Word 16)
    (hc : Cond.ofBits (w.extractLsb' 28 4) = none) : facade false w pc regs = .reservedCond := by
  simp [facade, hc]

section
variable {c : Cond} {w : Word} (hc : Cond.ofBits (w.extractLsb' 28 4) = some c) (s : State)
include hc

/-- The Various arm (R143 to R148). -/
theorem facade_various (h : w.extractLsb' 25 3 = 0b000#3) :
    facade false w s.pc s.regs = resultOf (decodeVarious c w) s := by
  simp only [facade, hc, h, decodeVarious, extractUnsigned, bitAt, ← BitVec.toNat_inj, BitVec.reduceToNat,
    Bool.false_eq_true, if_false]
  split_ifs <;> rfl

/-- The DataProcessing arm (R160 to R164). -/
theorem facade_dataProcessing (h : w.extractLsb' 25 3 = 0b001#3) :
    facade false w s.pc s.regs = resultOf (decodeDataProcessing c w) s := by
  simp only [facade, hc, h, decodeDataProcessing, extractUnsigned, bitAt, ← BitVec.toNat_inj, BitVec.reduceToNat,
    Bool.false_eq_true, if_false]
  split
  next hsub => rw [hsub]; rfl
  next hadd => rw [hadd]; rfl
  next hmov => rw [hmov]; rfl
  next hsub hadd hmov => rw [if_neg hsub, if_neg hadd, if_neg hmov]; rfl

/-- The SingleDataTransfer arm: the tree reads `L` and `B` as they are, the decoder chooses one of four rows by them (R180, R181). -/
theorem facade_singleDataTransfer (h : w.extractLsb' 25 3 = 0b010#3) :
    facade false w s.pc s.regs = resultOf (decodeSingleDataTransfer c w) s := by
  have hrow : resultOf (decodeSingleDataTransfer c w) s =
      singleTransfer s.regs c (bitAt w 20) (bitAt w 22) (bitAt w 23) (extractUnsigned w 16 4)
        (extractUnsigned w 12 4) (extractUnsigned w 0 12) := by
    unfold decodeSingleDataTransfer
    cases bitAt w 20 <;> cases bitAt w 22 <;> rfl
  simp only [hrow, facade, hc, h, singleTransfer, displayAddress_eq_addressOf, extractUnsigned, bitAt,
    ← BitVec.toNat_inj, BitVec.reduceToNat, Bool.false_eq_true, if_false]

/-- The BlockDataTransfer arm: the mode first, then `L` and the base (R200). -/
theorem facade_blockDataTransfer (h : w.extractLsb' 25 3 = 0b100#3) :
    facade false w s.pc s.regs = resultOf (decodeBlockDataTransfer c w) s := by
  simp only [facade, hc, h, decodeBlockDataTransfer, extractUnsigned, bitAt, ne_eq, ← BitVec.toNat_inj,
    BitVec.reduceToNat, Bool.false_eq_true, if_false]
  by_cases hmode : (w.extractLsb' 23 2).toNat = 2
  · by_cases hsp : (w.extractLsb' 16 4).toNat = 13 <;> cases w.getLsbD 20 <;>
      simp only [hmode, hsp, not_true, if_true, if_false] <;> rfl
  · rw [if_pos hmode, if_pos hmode]; rfl

/-- The Branch arm (R220). -/
theorem facade_branch (h : w.extractLsb' 25 3 = 0b101#3) :
    facade false w s.pc s.regs = resultOf (decodeBranch c w) s := by
  rw [decodeBranch, bitAt]
  simp only [facade, hc, h, extractUnsigned, ← branchTarget_eq_targetOf, BitVec.reduceToNat,
    Bool.false_eq_true, if_false]
  split_ifs <;> rfl

/-- The words of no category (R149). -/
theorem facade_noCategory (pc : Word) (regs : Vector Word 16)
    (h : w.extractLsb' 25 3 = 0b011#3 ∨ w.extractLsb' 25 3 = 0b110#3 ∨ w.extractLsb' 25 3 = 0b111#3) :
    facade false w pc regs = .unknown := by
  rcases h with h | h | h <;> simp only [facade, hc, h, BitVec.reduceToNat, Bool.false_eq_true, if_false]

/-! ### The dispatches agree -/

/-- R142: the category dispatch of the decoder takes the arm that the tree takes. -/
theorem facade_decodeCategory : facade false w s.pc s.regs = resultOf (decodeCategory c w) s := by
  have hrest : ∀ k : BitVec 3, k ≠ 0b000#3 → k ≠ 0b001#3 → k ≠ 0b010#3 → k ≠ 0b100#3 → k ≠ 0b101#3 →
      k = 0b011#3 ∨ k = 0b110#3 ∨ k = 0b111#3 := by bv_omega
  unfold decodeCategory extractUnsigned
  dsimp only
  split_ifs with h0 h1 h2 h4 h5
  · exact facade_various hc s h0
  · exact facade_dataProcessing hc s h1
  · exact facade_singleDataTransfer hc s h2
  · exact facade_blockDataTransfer hc s h4
  · exact facade_branch hc s h5
  all_goals exact facade_noCategory hc s.pc s.regs (hrest _ h0 h1 h2 h4 h5)

end

/-- The tree on the raw inputs gives the result of the instruction that the decoder makes of them. -/
theorem facade_eq_resultOf (s : State) : facade s.thumb s.opcode s.pc s.regs = resultOf s.instr s := by
  rw [instr_eq]
  cases s.thumb with
  | true => exact facade_thumb s.opcode s.pc s.regs
  | false =>
    change _ = resultOf (decodeArm s.opcode) s
    unfold decodeArm
    split
    next hc => exact facade_reserved s.pc s.regs hc
    next c hc => exact facade_decodeCategory hc s

end Sys2Proof.Machine

open Sys2Proof.Machine

/-- Settles O12: a step emits the decoded instruction's result, which is the tree's. -/
theorem stepFollowsClassificationTree : Obligations.StepFollowsClassificationTree := by
  intro s
  rw [step_eq, emit_eq_shows, facade_eq_resultOf]

end

section
/-! PROOFS. Which part of the register snapshot the outputs depend on (R23): the tree of R84 reads it in one arm, at one element. -/

namespace Sys2Proof.Machine

/-- A step shows what the tree gives on the inputs, so two states on which the tree agrees step to the same outputs. -/
theorem sameOutputs_step_of_facade_eq {s t : State}
    (h : facade s.thumb s.opcode s.pc s.regs = facade t.thumb t.opcode t.pc t.regs) :
    SameOutputs (step s) (step t) := by
  refine ⟨_, _, stepFollowsClassificationTree s, stepFollowsClassificationTree t, ?_⟩
  simp [h]

/-- R182: of the snapshot, the display address reads the base register's element only. -/
theorem addressOf_congr_base {regs regs' : Vector Word 16} {rn : Reg} (u : Bool) (off12 : BitVec 12)
    (h : regs'[rn.toFin] = regs[rn.toFin]) : addressOf regs' u rn off12 = addressOf regs u rn off12 := by
  simp only [addressOf, h]

/-- A word of a named condition on the 32-bit path is in the category that its bits 27:25 name (R142). -/
theorem inCategory_of_named {s : State} {c : Cond} {id3 : BitVec 3} (hthumb : s.thumb = false)
    (hcond : Cond.ofBits (s.opcode.extractLsb' 28 4) = some c) (hid3 : s.opcode.extractLsb' 25 3 = id3) :
    s.InCategory id3 := by
  refine ⟨hthumb, ?_, hid3⟩
  rw [(Cond.ofBits_eq_some _ c).mp hcond]
  exact c.bits_ne_reserved

/-- R23: outside the single transfers the tree does not read the snapshot. -/
theorem facade_regs_of_not_singleDataTransfer {s : State} (hcat : ¬ s.InCategory 0b010#3) (regs : Vector Word 16) :
    facade s.thumb s.opcode s.pc regs = facade s.thumb s.opcode s.pc s.regs := by
  cases hthumb : s.thumb with
  | true => rfl
  | false =>
    cases hcond : Cond.ofBits (s.opcode.extractLsb' 28 4) with
    | none => rw [facade_reserved _ _ hcond, facade_reserved _ _ hcond]
    | some c =>
      simp only [facade, hcond, Bool.false_eq_true, if_false]
      split
      case h_3 hid3 => exact absurd (inCategory_of_named hthumb hcond (BitVec.eq_of_toNat_eq (y := 0b010#3) hid3)) hcat
      all_goals rfl

/-- R23, R181: the tree reads the snapshot only for a single transfer at a nonzero offset, and there only the base register's element. -/
theorem facade_congr_regs (s : State) (regs : Vector Word 16)
    (h : s.InCategory 0b010#3 → s.opcode.extractLsb' 0 12 ≠ 0#12 →
      regs[(s.opcode.extractLsb' 16 4).toFin] = s.regs[(s.opcode.extractLsb' 16 4).toFin]) :
    facade s.thumb s.opcode s.pc regs = facade s.thumb s.opcode s.pc s.regs := by
  by_cases hcat : s.InCategory 0b010#3
  · by_cases hoff : s.opcode.extractLsb' 0 12 = 0#12
    · obtain ⟨-, -, hid3⟩ := hcat
      simp only [facade, hid3, hoff, BitVec.reduceToNat, if_true]
    · simp only [facade, addressOf_congr_base _ _ (h hcat hoff)]
  · exact facade_regs_of_not_singleDataTransfer hcat regs

end Sys2Proof.Machine

open Sys2Proof.Machine

/-- Settles O15: a step shows the tree's result, and the tree reads the snapshot in one arm at one element. -/
theorem snapshotReadOnlyAtLiteralBase : Obligations.SnapshotReadOnlyAtLiteralBase := by
  refine ⟨fun s regs hno => ?_, fun s regs hbase => ?_⟩
  · exact sameOutputs_step_of_facade_eq (facade_congr_regs s regs fun hcat hoff => absurd ⟨hcat, hoff⟩ hno).symm
  · exact sameOutputs_step_of_facade_eq (facade_congr_regs s regs fun _ _ => hbase).symm

end

section
/-! PROOFS. The lengths of the texts (R27): the length of each part, the length of each rendering as the sum of its parts, and the bound of each class of results. -/

namespace Sys2Proof.Machine

/-! ### The parts -/

theorem name_length_le (r : Reg) : (name r).length ≤ 3 := by
  rcases name_length r with h | h <;> omega

theorem suffix_length_le (c : Cond) : (suffix c).length ≤ 2 := by
  rw [suffix_length]; split <;> omega

theorem sfx_length_le (s : Bool) : (sfx s).length ≤ 1 := sfx_length s ▸ Bool.toNat_le s

theorem bsfx_length_le (b : Bool) : (bsfx b).length ≤ 1 := bsfx_length b ▸ Bool.toNat_le b

theorem wb_length_le (w : Bool) : (wb w).length ≤ 1 := wb_length w ▸ Bool.toNat_le w

theorem sep_length : sep.length = 2 := rfl

theorem space_length : (ascii " ").length = 1 := rfl

theorem hex_length (v : Word) : (hex v).length = (stripZeros (nibbles v)).length + 2 := by
  rw [hex, List.length_append, List.length_map, Nat.add_comm]; rfl

/-- R121: `0x` and at most eight digits. -/
theorem hex_length_le (v : Word) : (hex v).length ≤ 10 := by
  have hdigits : (stripZeros (nibbles v)).length ≤ 8 := stripZeros_length_le (nibbles v)
  rw [hex_length]; omega

theorem stripZeros_zero_cons (d : BitVec 4) (ds : List (BitVec 4)) :
    stripZeros (0#4 :: d :: ds) = stripZeros (d :: ds) := by simp [stripZeros]

/-- A digit above a narrower field is zero. -/
theorem extractUnsigned_zext_of_le {n : Nat} (v : BitVec n) {k : Nat} (h : n ≤ k) :
    extractUnsigned (zext v) k 4 = 0#4 := by
  ext i hi
  have hbit : v.getLsbD (k + i) = false := BitVec.getLsbD_of_ge v (k + i) (by omega)
  simp [extractUnsigned, zext, hbit]

/-- R122: a 12-bit immediate is shown with at most three digits. -/
theorem immediate_length_le (i : BitVec 12) : (immediate i).length ≤ 6 := by
  have hlead : stripZeros (nibbles (zext i)) = stripZeros
      [extractUnsigned (zext i) 8 4, extractUnsigned (zext i) 4 4, extractUnsigned (zext i) 0 4] := by
    rw [nibbles]
    iterate 5 rw [extractUnsigned_zext_of_le i (by decide), stripZeros_zero_cons]
  have hdigits := stripZeros_length_le
    [extractUnsigned (zext i) 8 4, extractUnsigned (zext i) 4 4, extractUnsigned (zext i) 0 4]
  rw [← hlead] at hdigits
  have hmark : (immediate i).length = (hex (zext i)).length + 1 := by
    rw [immediate, List.length_append, Nat.add_comm]; rfl
  rw [hmark, hex_length]
  exact Nat.add_le_add_right hdigits 3

/-- R124: a joined list has one comma less than it has texts. -/
theorem joinComma_length : ∀ ts : List Text,
    (joinComma ts).length = (ts.map fun t => t.length + 1).sum - 1
  | [] => rfl
  | [t] => by simp
  | t :: u :: ts => by
    have hcomma : (ascii ",").length = 1 := rfl
    have ih := joinComma_length (u :: ts)
    simp only [List.map_cons, List.sum_cons] at ih
    simp only [joinComma_cons, List.length_append, hcomma, ih, List.map_cons, List.sum_cons]
    omega

/-- R82: the listed registers stand in ascending order, so they are some of all sixteen in that order. -/
theorem listed_sublist (m : BitVec 16) : (listed m).Sublist (listed 0xFFFF#16) := by
  have hall : listed 0xFFFF#16 = (List.range 16).map fun i => BitVec.ofNat 4 i := by decide
  rw [hall]
  exact List.filter_sublist.map _

/-- R27: the longest register list is the one of all sixteen registers. -/
theorem reglist_length_le (m : BitVec 16) : (reglist m).length ≤ 50 := by
  have hsum := (((listed_sublist m).map name).map fun t => t.length + 1).sum_le_sum fun _ _ => Nat.zero_le _
  have hall : (((listed 0xFFFF#16).map name).map fun t => t.length + 1).sum = 51 := by decide
  rw [reglist, joinComma_length]
  omega

theorem bracedList_length_le (m : BitVec 16) : (bracedList m).length ≤ 52 := by
  have hlist := reglist_length_le m
  simp only [bracedList, List.length_append, List.length_singleton]
  omega

/-! ### The formatters: a text is as long as its parts together -/

theorem renderThreeOperand_length (base : Text) (c s d n i) :
    (renderThreeOperand base c s d n i).length = base.length + (sfx s).length + (suffix c).length +
      (name d).length + (name n).length + (immediate i).length + 5 := by
  simp only [renderThreeOperand, List.length_append, sep_length, space_length]
  omega

theorem renderMove_length (c s d i) :
    (renderMove c s d i).length = (sfx s).length + (suffix c).length + (name d).length +
      (immediate i).length + 6 := by
  have hbase : (ascii "MOV").length = 3 := rfl
  simp only [renderMove, List.length_append, hbase, sep_length, space_length]
  omega

theorem transferMnemonic_length (l b c) :
    (transferMnemonic l b c).length = (bsfx b).length + (suffix c).length + 3 := by
  have hbase : (if l then ascii "LDR" else ascii "STR").length = 3 := by cases l <;> rfl
  simp only [transferMnemonic, List.length_append, hbase]
  omega

theorem renderIndexed_length (c l b d n) :
    (renderIndexed c l b d n).length = (bsfx b).length + (suffix c).length + (name d).length +
      (name n).length + 8 := by
  have hopen : (ascii "[").length = 1 := rfl
  have hclose : (ascii "]").length = 1 := rfl
  simp only [renderIndexed, List.length_append, transferMnemonic_length, sep_length, space_length, hopen, hclose]
  omega

theorem renderLiteral_length (c l b d a) :
    (renderLiteral c l b d a).length = (bsfx b).length + (suffix c).length + (name d).length +
      (hex a).length + 7 := by
  have hequals : (ascii "=").length = 1 := rfl
  simp only [renderLiteral, List.length_append, transferMnemonic_length, sep_length, space_length, hequals]
  omega

theorem renderBlock_length (base modetext : Text) (c n w m) :
    (renderBlock base modetext c n w m).length = base.length + modetext.length + (suffix c).length +
      (name n).length + (wb w).length + (bracedList m).length + 3 := by
  simp only [renderBlock, List.length_append, sep_length, space_length]
  omega

theorem renderBranch_length (base : Text) (c t) :
    (renderBranch base c t).length = base.length + (suffix c).length + (hex t).length + 1 := by
  simp only [renderBranch, List.length_append, space_length]
  omega

/-! ### The classes of results -/

/-- R86: a sentinel's text is one of nine literals. -/
theorem render_length_of_isSentinel {r : Result} (h : r.isSentinel = true) :
    1 ≤ (render r).length ∧ (render r).length ≤ 25 := by
  cases r <;> cases h <;> decide

/-- R161, R162: a three-operand text, whose mnemonic base has three letters. -/
theorem renderThreeOperand_length_bounds {base : Text} (hbase : base.length = 3) (c s d n i) :
    1 ≤ (renderThreeOperand base c s d n i).length ∧ (renderThreeOperand base c s d n i).length ≤ 23 := by
  have := sfx_length_le s; have := suffix_length_le c; have := name_length_le d
  have := name_length_le n; have := immediate_length_le i
  rw [renderThreeOperand_length]
  omega

/-- R160 to R164, R180 to R186. -/
theorem render_length_of_isDataOrSingle {r : Result} (h : r.isDataOrSingle = true) :
    1 ≤ (render r).length ∧ (render r).length ≤ 23 := by
  match r, h with
  | .dpSub c s d n i, _ => exact renderThreeOperand_length_bounds rfl c s d n i
  | .dpAdd c s d n i, _ => exact renderThreeOperand_length_bounds rfl c s d n i
  | .dpMov c s d i, _ =>
    rw [render, renderMove_length]
    have := sfx_length_le s; have := suffix_length_le c; have := name_length_le d
    have := immediate_length_le i
    omega
  | .sdtIndexed c l b d n, _ =>
    rw [render, renderIndexed_length]
    have := bsfx_length_le b; have := suffix_length_le c; have := name_length_le d
    have := name_length_le n
    omega
  | .sdtLiteral c l b d a, _ =>
    rw [render, renderLiteral_length]
    have := bsfx_length_le b; have := suffix_length_le c; have := name_length_le d
    have := hex_length_le a
    omega

/-- R201: a block transfer's text, whose mnemonic has three letters and two for the mode. -/
theorem renderBlock_length_bounds {base modetext : Text} (hbase : base.length = 3) (hmode : modetext.length = 2)
    (c n w m) :
    1 ≤ (renderBlock base modetext c n w m).length ∧ (renderBlock base modetext c n w m).length ≤ 66 := by
  have := suffix_length_le c; have := name_length_le n; have := wb_length_le w
  have := bracedList_length_le m
  rw [renderBlock_length]
  omega

/-- R202 to R204. -/
theorem render_length_of_isBlock {r : Result} (h : r.isBlock = true) :
    1 ≤ (render r).length ∧ (render r).length ≤ 66 := by
  match r, h with
  | .stmDb c n w m, _ => exact renderBlock_length_bounds rfl rfl c n w m
  | .stmFd c w m, _ => exact renderBlock_length_bounds rfl rfl c 13#4 w m
  | .ldmDb c n w m, _ => exact renderBlock_length_bounds rfl rfl c n w m

/-- R145. -/
theorem render_bx_length_bounds (c : Cond) (m : Reg) : 1 ≤ (render (.bx c m)).length ∧ (render (.bx c m)).length ≤ 8 := by
  have hbase : (ascii "BX").length = 2 := rfl
  have := suffix_length_le c; have := name_length_le m
  simp only [render, List.length_append, hbase, space_length]
  omega

/-- R221, R222: a branch's mnemonic base has at most two letters. -/
theorem renderBranch_length_bounds {base : Text} (hbase : base.length ≤ 2) (c : Cond) (t : Word) :
    1 ≤ (renderBranch base c t).length ∧ (renderBranch base c t).length ≤ 15 := by
  have := suffix_length_le c; have := hex_length_le t
  rw [renderBranch_length]
  omega

/-- Outside the block transfers a sentinel's text is the longest. -/
theorem render_length_of_not_isBlock {r : Result} (h : r.isBlock = false) :
    1 ≤ (render r).length ∧ (render r).length ≤ 25 := by
  by_cases hs : r.isSentinel = true
  · exact render_length_of_isSentinel hs
  by_cases hd : r.isDataOrSingle = true
  · exact (render_length_of_isDataOrSingle hd).imp_right (·.trans (by decide))
  match r, h with
  | .bx c m, _ => exact (render_bx_length_bounds c m).imp_right (·.trans (by decide))
  | .b c t, _ => exact (renderBranch_length_bounds (by decide) c t).imp_right (·.trans (by decide))
  | .bl c t, _ => exact (renderBranch_length_bounds (by decide) c t).imp_right (·.trans (by decide))
  | .reservedCond, _ | .unknownVariousOp, _ | .unknownMiscCategory, _ | .unknownMiscOther, _ | .unknown, _
  | .unknownDataProcessing, _ | .unknownSPLoadMultiple, _ | .unknownAddressingMode, _ | .unknownThumb, _ =>
    exact absurd rfl hs
  | .dpSub .., _ | .dpAdd .., _ | .dpMov .., _ | .sdtIndexed .., _ | .sdtLiteral .., _ => exact absurd rfl hd

/-- R25, R27: every text has a character, and none passes MAX_TEXT_LEN. -/
theorem render_length_bounds (r : Result) : 1 ≤ (render r).length ∧ (render r).length ≤ 66 := by
  cases h : r.isBlock with
  | true => exact render_length_of_isBlock h
  | false => exact (render_length_of_not_isBlock h).imp_right (·.trans (by decide))

end Sys2Proof.Machine

open Sys2Proof.Machine

/-- Settles O46: each class of results has its bound, and the texts that R27 names are evaluated. -/
theorem longestTextIs66Bytes : Obligations.LongestTextIs66Bytes :=
  ⟨rfl, render_length_bounds, fun _ h => (render_length_of_not_isBlock h).2, fun _ h => (render_length_of_isSentinel h).2,
    fun _ h => (render_length_of_isDataOrSingle h).2, by decide, by decide, by decide, by decide, by decide⟩

end

section
/-! PROOFS. The branch offset (R81): the extended and shifted field is four times the signed field, with no wrap. -/

namespace Sys2Proof

theorem sext_shiftLeft_two (imm24 : BitVec 24) : sext imm24 <<< 2 = BitVec.ofInt 32 (4 * imm24.toInt) := by
  rw [BitVec.shiftLeft_eq_mul_twoPow, BitVec.mul_comm, BitVec.ofInt_mul]
  rfl

end Sys2Proof

open Sys2Proof

/-- Settles O43: four times a signed 24-bit field fits in 32 bits, so narrowing it changes nothing. -/
theorem branchOffsetRange : Obligations.BranchOffsetRange := by
  intro i
  have hlow : -0x800000 ≤ i.toInt := BitVec.le_toInt i
  have hhigh : i.toInt < 0x800000 := BitVec.toInt_lt
  rw [sext_shiftLeft_two, BitVec.toInt_ofInt_eq_self (by decide) (by omega) (by omega)]
  omega

end

section
/-! PROOFS. Masks as lists of fields: words agree under a mask exactly when they agree on the fields it covers, said once for every mask and then for each mask of R85. -/

namespace Sys2Proof

/-- Words agree under a mask exactly when they agree on each of its bits. -/
theorem and_eq_and_iff_bits (w v m : Word) :
    w &&& m = v &&& m ↔ ∀ i, m.getLsbD i = true → w.getLsbD i = v.getLsbD i := by
  constructor
  · intro h i hi
    simpa [hi] using congrArg (·.getLsbD i) h
  · intro h
    apply BitVec.eq_of_getLsbD_eq
    intro i _
    cases hi : m.getLsbD i with
    | true => simp [h i hi]
    | false => simp [hi]

/-- The mask of the field of `n` bits from offset `o`. -/
def fieldMask (o n : Nat) : Word := (BitVec.allOnes n).setWidth 32 <<< o

/-- The mask of a list of fields, each given by its offset and its width. -/
def fieldsMask : List (Nat × Nat) → Word
  | [] => 0#32
  | (o, n) :: fs => fieldMask o n ||| fieldsMask fs

theorem getLsbD_fieldMask_iff (o n i : Nat) : (fieldMask o n).getLsbD i = true ↔ i < 32 ∧ o ≤ i ∧ i < o + n := by
  simp [fieldMask]
  omega

theorem and_fieldMask_eq_iff (w v : Word) (o n : Nat) :
    w &&& fieldMask o n = v &&& fieldMask o n ↔ extractUnsigned w o n = extractUnsigned v o n := by
  simp only [and_eq_and_iff_bits, getLsbD_fieldMask_iff]
  constructor
  · intro h
    apply BitVec.eq_of_getLsbD_eq
    intro i hi
    by_cases ho : o + i < 32
    · simpa [extractUnsigned, hi] using h (o + i) (by omega)
    · simp [extractUnsigned, BitVec.getLsbD_of_ge, (by omega : 32 ≤ o + i)]
  · rintro h i ⟨-, hlow, hhigh⟩
    have hbit := congrArg (·.getLsbD (i - o)) h
    simpa [extractUnsigned, hlow, (by omega : i - o < n)] using hbit

theorem and_fieldsMask_eq_iff (w v : Word) : ∀ fs : List (Nat × Nat),
    w &&& fieldsMask fs = v &&& fieldsMask fs ↔ ∀ f ∈ fs, extractUnsigned w f.1 f.2 = extractUnsigned v f.1 f.2
  | [] => by simp [fieldsMask]
  | (o, n) :: fs => by
    have hsplit : ∀ a b : Word, w &&& (a ||| b) = v &&& (a ||| b) ↔ w &&& a = v &&& a ∧ w &&& b = v &&& b := by
      simp [and_eq_and_iff_bits, or_imp, forall_and]
    rw [fieldsMask, hsplit, and_fieldMask_eq_iff, and_fieldsMask_eq_iff w v fs, List.forall_mem_cons]

/-- A word matches a mask and a pattern exactly when it has the pattern's value in each field of the mask. -/
theorem and_eq_iff_fields (w : Word) {m p : Word} (fs : List (Nat × Nat)) (hm : m = fieldsMask fs) (hp : p &&& m = p) :
    w &&& m = p ↔ ∀ f ∈ fs, extractUnsigned w f.1 f.2 = extractUnsigned p f.1 f.2 := by
  rw [← and_fieldsMask_eq_iff, ← hm, hp]

theorem extractUnsigned_one (w : Word) (i : Nat) : extractUnsigned w i 1 = bit1 (bitAt w i) := by
  apply BitVec.eq_of_getLsbD_eq
  intro j hj
  obtain rfl : j = 0 := by omega
  simp [extractUnsigned, bit1, bitAt]

theorem extractUnsigned_one_eq_iff (w v : Word) (i : Nat) :
    extractUnsigned w i 1 = extractUnsigned v i 1 ↔ bitAt w i = bitAt v i := by
  rw [extractUnsigned_one, extractUnsigned_one]
  cases bitAt w i <;> cases bitAt v i <;> decide

/-! ### The masks of R85 -/

section
variable (w : Word) {p : Word}

theorem and_categoryMask (hp : p &&& 0x0E000000#32 = p) :
    w &&& 0x0E000000#32 = p ↔ extractUnsigned w 25 3 = extractUnsigned p 25 3 := by
  simp [and_eq_iff_fields w [(25, 3)] (by decide) hp]

/-- Row 1: the mask of BX. -/
theorem and_exchangeMask (hp : p &&& 0x0FF000F0#32 = p) :
    w &&& 0x0FF000F0#32 = p ↔
      extractUnsigned w 25 3 = extractUnsigned p 25 3 ∧ extractUnsigned w 23 2 = extractUnsigned p 23 2 ∧
      bitAt w 20 = bitAt p 20 ∧ extractUnsigned w 4 4 = extractUnsigned p 4 4 ∧
      extractUnsigned w 21 2 = extractUnsigned p 21 2 := by
  simp [and_eq_iff_fields w [(25, 3), (23, 2), (20, 1), (4, 4), (21, 2)] (by decide) hp, extractUnsigned_one_eq_iff]

/-- Row 2: the miscellaneous sub-group with its `id4`. -/
theorem and_miscMask (hp : p &&& 0x0F9000F0#32 = p) :
    w &&& 0x0F9000F0#32 = p ↔
      extractUnsigned w 25 3 = extractUnsigned p 25 3 ∧ extractUnsigned w 23 2 = extractUnsigned p 23 2 ∧
      bitAt w 20 = bitAt p 20 ∧ extractUnsigned w 4 4 = extractUnsigned p 4 4 := by
  simp [and_eq_iff_fields w [(25, 3), (23, 2), (20, 1), (4, 4)] (by decide) hp, extractUnsigned_one_eq_iff]

/-- Rows 3, 13 and 15: bits 24:23 (`id2` or the block mode) and bit 20. -/
theorem and_modeMask (hp : p &&& 0x0F900000#32 = p) :
    w &&& 0x0F900000#32 = p ↔
      extractUnsigned w 25 3 = extractUnsigned p 25 3 ∧ extractUnsigned w 23 2 = extractUnsigned p 23 2 ∧
      bitAt w 20 = bitAt p 20 := by
  simp [and_eq_iff_fields w [(25, 3), (23, 2), (20, 1)] (by decide) hp, extractUnsigned_one_eq_iff]

/-- Rows 14 and 16: the block mode, `L` and the base. -/
theorem and_modeBaseMask (hp : p &&& 0x0F9F0000#32 = p) :
    w &&& 0x0F9F0000#32 = p ↔
      extractUnsigned w 25 3 = extractUnsigned p 25 3 ∧ extractUnsigned w 23 2 = extractUnsigned p 23 2 ∧
      bitAt w 20 = bitAt p 20 ∧ extractUnsigned w 16 4 = extractUnsigned p 16 4 := by
  simp [and_eq_iff_fields w [(25, 3), (23, 2), (20, 1), (16, 4)] (by decide) hp, extractUnsigned_one_eq_iff]

theorem and_subOpcodeMask (hp : p &&& 0x0FE00000#32 = p) :
    w &&& 0x0FE00000#32 = p ↔
      extractUnsigned w 25 3 = extractUnsigned p 25 3 ∧ extractUnsigned w 21 4 = extractUnsigned p 21 4 := by
  simp [and_eq_iff_fields w [(25, 3), (21, 4)] (by decide) hp]

/-- Rows 9 to 12: `L` and `B` of a single transfer. -/
theorem and_loadByteMask (hp : p &&& 0x0E500000#32 = p) :
    w &&& 0x0E500000#32 = p ↔
      extractUnsigned w 25 3 = extractUnsigned p 25 3 ∧ bitAt w 20 = bitAt p 20 ∧ bitAt w 22 = bitAt p 22 := by
  simp [and_eq_iff_fields w [(25, 3), (20, 1), (22, 1)] (by decide) hp, extractUnsigned_one_eq_iff]

theorem and_linkMask (hp : p &&& 0x0F000000#32 = p) :
    w &&& 0x0F000000#32 = p ↔ extractUnsigned w 25 3 = extractUnsigned p 25 3 ∧ bitAt w 24 = bitAt p 24 := by
  simp [and_eq_iff_fields w [(25, 3), (24, 1)] (by decide) hp, extractUnsigned_one_eq_iff]

end

end Sys2Proof
end

section
/-! PROOFS. The opcode map of R85 agrees with the tree of R84. A matching row is a row of the word's category, and inside a category the rows' conditions are the paths of its decoder. -/

namespace Sys2Proof

/-! ### What a matching row says -/

theorem exists_row_of_rowMatches {k : Nat} {w : Word} (h : rowMatches k w = true) :
    ∃ hk : k < opcodeMap.length, w &&& opcodeMap[k].1 = opcodeMap[k].2.1 ∧ opcodeMap[k].2.2 w = true := by
  unfold rowMatches at h
  split at h
  next => cases h
  next mask pattern extra hrow =>
    obtain ⟨hk, hget⟩ := List.getElem?_eq_some_iff.mp hrow
    obtain ⟨hmask, hextra⟩ := (Bool.and_eq_true ..).mp h
    exact ⟨hk, by simpa [hget] using hmask, by simpa [hget] using hextra⟩

theorem rowMatches_zero (w : Word) : rowMatches 0 w = true ↔ extractUnsigned w 28 4 = 0b1111#4 := by
  simpa [rowMatches, opcodeMap, extractUnsigned] using
    and_eq_iff_fields w (m := 0xF0000000#32) (p := 0xF0000000#32) [(28, 4)] (by decide) (by decide)

/-- Every row but the first asks for a named condition. -/
theorem named_of_rowMatches {k : Nat} {w : Word} (hk : k ≠ 0) (h : rowMatches k w = true) :
    extractUnsigned w 28 4 ≠ 0b1111#4 := by
  have hall : ∀ r ∈ opcodeMap.tail, r.2.2 w = true → extractUnsigned w 28 4 ≠ 0b1111#4 := by
    simp +contextual [opcodeMap]
  obtain ⟨hlt, -, hextra⟩ := exists_row_of_rowMatches h
  obtain ⟨j, rfl⟩ := Nat.exists_eq_succ_of_ne_zero hk
  exact hall _ (List.mem_of_getElem? (by rw [List.getElem?_tail, List.getElem?_eq_getElem hlt])) hextra

/-- The rows of the opcode map for a word with `id3` in its bits 27:25 and a named condition. -/
def categoryRows (id3 : BitVec 3) : List Nat :=
  match id3.toNat with
  | 0 => [1, 2, 3, 4]
  | 1 => [5, 6, 7, 8]
  | 2 => [9, 10, 11, 12]
  | 3 => [20]
  | 4 => [13, 14, 15, 16, 17]
  | 5 => [18, 19]
  | 6 => [21]
  | _ => [22]

/-- Every row but the first fixes bits 27:25, at the category it is a row of. -/
theorem opcodeMap_fixes_category : ∀ k (hk : k < opcodeMap.length), k ≠ 0 →
    extractUnsigned opcodeMap[k].1 25 3 = BitVec.allOnes 3 ∧
      k ∈ categoryRows (extractUnsigned opcodeMap[k].2.1 25 3) := by decide

theorem mem_categoryRows_of_rowMatches {k : Nat} {w : Word} (hk : k ≠ 0) (h : rowMatches k w = true) :
    k ∈ categoryRows (extractUnsigned w 25 3) := by
  obtain ⟨hlt, hmask, -⟩ := exists_row_of_rowMatches h
  obtain ⟨hcovers, hmem⟩ := opcodeMap_fixes_category k hlt hk
  rwa [extractUnsigned_of_mask hmask 25 3 hcovers]

/-! ### The rows that the category decoders choose -/

theorem decodeVarious_row (c : Cond) (w : Word) : (decodeVarious c w).row =
    if extractUnsigned w 23 2 = 0b10#2 ∧ bitAt w 20 = false then
      if extractUnsigned w 4 4 = 0b0001#4 then if extractUnsigned w 21 2 = 0b01#2 then 1 else 2 else 3
    else 4 := by
  unfold decodeVarious
  dsimp only
  split_ifs <;> rfl

theorem decodeDataProcessing_row (c : Cond) (w : Word) : (decodeDataProcessing c w).row =
    if extractUnsigned w 21 4 = 0b0010#4 then 5
    else if extractUnsigned w 21 4 = 0b0100#4 then 6
    else if extractUnsigned w 21 4 = 0b1101#4 then 7
    else 8 := by
  unfold decodeDataProcessing
  dsimp only
  split_ifs <;> rfl

theorem decodeSingleDataTransfer_row (c : Cond) (w : Word) : (decodeSingleDataTransfer c w).row =
    if bitAt w 20 = false then if bitAt w 22 = false then 9 else 10
    else if bitAt w 22 = false then 11 else 12 := by
  unfold decodeSingleDataTransfer
  cases bitAt w 20 <;> cases bitAt w 22 <;> rfl

theorem decodeBlockDataTransfer_row (c : Cond) (w : Word) : (decodeBlockDataTransfer c w).row =
    if extractUnsigned w 23 2 ≠ 0b10#2 then 17
    else if bitAt w 20 = false then if extractUnsigned w 16 4 = 13#4 then 14 else 13
    else if extractUnsigned w 16 4 = 13#4 then 16 else 15 := by
  unfold decodeBlockDataTransfer
  dsimp only
  split_ifs <;> rfl

theorem decodeBranch_row (c : Cond) (w : Word) : (decodeBranch c w).row = if bitAt w 24 then 19 else 18 := by
  unfold decodeBranch
  split_ifs <;> rfl

/-! ### The rows and the decoder agree, category by category

Each proof compares the category's rows, read as conditions on fields, with the decoder's path to each of them. -/

section
variable {w : Word} (hn : w.extractLsb' 28 4 ≠ 0b1111#4) (c : Cond)
include hn

/-- It is enough to compare a row with the rows of the word's category. -/
theorem rowMatches_iff_of_categoryRows {id3 : BitVec 3} {n : Nat} (h : extractUnsigned w 25 3 = id3)
    (hmem : n ∈ categoryRows id3) (hiff : ∀ k ∈ categoryRows id3, rowMatches k w = true ↔ k = n) (k : Nat) :
    rowMatches k w = true ↔ k = n := by
  subst h
  constructor
  · intro hmatch
    have hk : k ≠ 0 := by
      rintro rfl
      exact hn ((rowMatches_zero w).mp hmatch)
    exact (hiff k (mem_categoryRows_of_rowMatches hk hmatch)).mp hmatch
  · rintro rfl
    exact (hiff k hmem).mpr rfl

theorem rowMatches_iff_various (h : w.extractLsb' 25 3 = 0b000#3) :
    ∀ k, rowMatches k w = true ↔ k = (decodeVarious c w).row := by
  rw [decodeVarious_row]
  refine rowMatches_iff_of_categoryRows hn h (by split_ifs <;> decide) ?_
  simp [categoryRows, rowMatches, opcodeMap, and_exchangeMask, and_miscMask, and_modeMask, and_categoryMask,
    extractUnsigned, bitAt, hn, h]
  grind

theorem rowMatches_iff_dataProcessing (h : w.extractLsb' 25 3 = 0b001#3) :
    ∀ k, rowMatches k w = true ↔ k = (decodeDataProcessing c w).row := by
  rw [decodeDataProcessing_row]
  refine rowMatches_iff_of_categoryRows hn h (by split_ifs <;> decide) ?_
  simp [categoryRows, rowMatches, opcodeMap, and_subOpcodeMask, and_categoryMask, extractUnsigned, hn, h]
  grind

theorem rowMatches_iff_singleDataTransfer (h : w.extractLsb' 25 3 = 0b010#3) :
    ∀ k, rowMatches k w = true ↔ k = (decodeSingleDataTransfer c w).row := by
  rw [decodeSingleDataTransfer_row]
  refine rowMatches_iff_of_categoryRows hn h (by split_ifs <;> decide) ?_
  simp [categoryRows, rowMatches, opcodeMap, and_loadByteMask, extractUnsigned, bitAt, hn, h]
  grind

theorem rowMatches_iff_blockDataTransfer (h : w.extractLsb' 25 3 = 0b100#3) :
    ∀ k, rowMatches k w = true ↔ k = (decodeBlockDataTransfer c w).row := by
  rw [decodeBlockDataTransfer_row]
  refine rowMatches_iff_of_categoryRows hn h (by split_ifs <;> decide) ?_
  simp [categoryRows, rowMatches, opcodeMap, and_modeMask, and_modeBaseMask, and_categoryMask, extractUnsigned, bitAt,
    hn, h]
  grind

theorem rowMatches_iff_branch (h : w.extractLsb' 25 3 = 0b101#3) :
    ∀ k, rowMatches k w = true ↔ k = (decodeBranch c w).row := by
  rw [decodeBranch_row]
  refine rowMatches_iff_of_categoryRows hn h (by split_ifs <;> decide) ?_
  simp [categoryRows, rowMatches, opcodeMap, and_linkMask, extractUnsigned, bitAt, hn, h]

/-- The words of no category (R149): the category has one row. -/
theorem rowMatches_iff_noCategory {n : Nat} (hrows : categoryRows (extractUnsigned w 25 3) = [n])
    (hmatch : rowMatches n w = true) : ∀ k, rowMatches k w = true ↔ k = n := by
  refine rowMatches_iff_of_categoryRows hn rfl (by simp [hrows]) ?_
  simpa [hrows] using hmatch

theorem rowMatches_of_noCategory :
    (w.extractLsb' 25 3 = 0b011#3 → rowMatches 20 w = true) ∧
    (w.extractLsb' 25 3 = 0b110#3 → rowMatches 21 w = true) ∧
    (w.extractLsb' 25 3 = 0b111#3 → rowMatches 22 w = true) := by
  simp [rowMatches, opcodeMap, and_categoryMask, extractUnsigned, hn]

/-- R142: the category dispatch takes a named word to its row. -/
theorem rowMatches_iff_decodeCategory_row : ∀ k, rowMatches k w = true ↔ k = (decodeCategory c w).row := by
  have hrest : ∀ k : BitVec 3, k ≠ 0b000#3 → k ≠ 0b001#3 → k ≠ 0b010#3 → k ≠ 0b100#3 → k ≠ 0b101#3 →
      k ≠ 0b011#3 → k ≠ 0b110#3 → k = 0b111#3 := by bv_omega
  obtain ⟨hrow3, hrow6, hrow7⟩ := rowMatches_of_noCategory hn
  unfold decodeCategory
  dsimp only
  split_ifs with h0 h1 h2 h4 h5 h3 h6
  · exact rowMatches_iff_various hn c h0
  · exact rowMatches_iff_dataProcessing hn c h1
  · exact rowMatches_iff_singleDataTransfer hn c h2
  · exact rowMatches_iff_blockDataTransfer hn c h4
  · exact rowMatches_iff_branch hn c h5
  · exact rowMatches_iff_noCategory hn (congrArg categoryRows h3) (hrow3 h3)
  · exact rowMatches_iff_noCategory hn (congrArg categoryRows h6) (hrow6 h6)
  · have h7 := hrest _ h0 h1 h2 h4 h5 h3 h6
    exact rowMatches_iff_noCategory hn (congrArg categoryRows h7) (hrow7 h7)

end

theorem Cond.ne_reserved_of_ofBits_eq_some {b : BitVec 4} {c : Cond} (h : Cond.ofBits b = some c) : b ≠ 0b1111#4 :=
  (Cond.ofBits_eq_some b c).mp h ▸ c.bits_ne_reserved

/-- A row of the map matches a word exactly when it is the row of the word's form. -/
theorem rowMatches_iff_decode_row (w : Word) (k : Nat) : rowMatches k w = true ↔ k = (decode false w).row := by
  change _ ↔ k = (decodeArm w).row
  unfold decodeArm
  split
  next hc =>
    have hreserved := (Cond.ofBits_eq_none _).mp hc
    constructor
    · intro hmatch
      by_contra hk
      exact named_of_rowMatches hk hmatch hreserved
    · rintro rfl
      exact (rowMatches_zero w).mpr hreserved
  next c hc => exact rowMatches_iff_decodeCategory_row (Cond.ne_reserved_of_ofBits_eq_some hc) c k

theorem decode_row_lt (w : Word) : (decode false w).row < 23 :=
  (exists_row_of_rowMatches ((rowMatches_iff_decode_row w _).mpr rfl)).1

end Sys2Proof

open Sys2Proof

/-- Settles O5: the rows of the word's category are the paths of that category's decoder, and no other row matches. -/
theorem exactlyOneOpcodeRowMatches : Obligations.ExactlyOneOpcodeRowMatches :=
  ⟨fun w => ⟨decode_row_lt w, rowMatches_iff_decode_row w⟩, fun _ => rfl⟩

end

section
/-! PROOFS. A word decodes to the same form as any word that agrees with it on the bits its form reads (R88). -/

namespace Sys2Proof.Machine

/-! ### Each category's decoder, at words that agree on the bits read

Each field that the decoder tests or keeps on the way to the form is covered by `readBits` of the form. -/

section
variable {v w : Word} (c : Cond)

theorem decodeVarious_congr (h : v &&& readBits (decodeVarious c w) = w &&& readBits (decodeVarious c w)) :
    decodeVarious c v = decodeVarious c w := by
  unfold decodeVarious at h ⊢
  dsimp only at h ⊢
  split_ifs at h with hmisc hid4 hop <;> dsimp only [readBits] at h <;>
    simp (disch := decide) [extractUnsigned_congr h, bitAt_congr h, *]

theorem decodeDataProcessing_congr
    (h : v &&& readBits (decodeDataProcessing c w) = w &&& readBits (decodeDataProcessing c w)) :
    decodeDataProcessing c v = decodeDataProcessing c w := by
  unfold decodeDataProcessing at h ⊢
  dsimp only at h ⊢
  split_ifs at h with hsub hadd hmov <;> dsimp only [readBits] at h <;>
    simp (disch := decide) [extractUnsigned_congr h, bitAt_congr h, *]

theorem decodeSingleDataTransfer_congr
    (h : v &&& readBits (decodeSingleDataTransfer c w) = w &&& readBits (decodeSingleDataTransfer c w)) :
    decodeSingleDataTransfer c v = decodeSingleDataTransfer c w := by
  have hread : readBits (decodeSingleDataTransfer c w) = 0xFEDFFFFF#32 := by
    unfold decodeSingleDataTransfer
    split <;> rfl
  rw [hread] at h
  simp (disch := decide) only [decodeSingleDataTransfer, extractUnsigned_congr h, bitAt_congr h]

theorem decodeBlockDataTransfer_congr
    (h : v &&& readBits (decodeBlockDataTransfer c w) = w &&& readBits (decodeBlockDataTransfer c w)) :
    decodeBlockDataTransfer c v = decodeBlockDataTransfer c w := by
  unfold decodeBlockDataTransfer at h ⊢
  dsimp only at h ⊢
  split_ifs at h with hmode hload hsp hsp <;> dsimp only [readBits] at h <;>
    simp (disch := decide) [extractUnsigned_congr h, bitAt_congr h, *]

theorem decodeBranch_congr (h : v &&& readBits (decodeBranch c w) = w &&& readBits (decodeBranch c w)) :
    decodeBranch c v = decodeBranch c w := by
  have hread : readBits (decodeBranch c w) = 0xFFFFFFFF#32 := by
    unfold decodeBranch
    split <;> rfl
  rw [hread] at h
  simp (disch := decide) only [decodeBranch, extractUnsigned_congr h, bitAt_congr h]

/-! ### The dispatches -/

theorem readBits_covers_cond {i : Instr} (hrow : i.row < 23) :
    extractUnsigned (readBits i) 28 4 = BitVec.allOnes 4 := by
  cases i with
  | unknownThumb _ => exact absurd hrow (Nat.lt_irrefl 23)
  | _ => dsimp only [readBits]; decide

theorem readBits_covers_category {i : Instr} (hne : i.row ≠ 0) (hrow : i.row < 23) :
    extractUnsigned (readBits i) 25 3 = BitVec.allOnes 3 := by
  cases i with
  | unknownThumb _ => exact absurd hrow (Nat.lt_irrefl 23)
  | reservedCond => exact absurd rfl hne
  | _ => dsimp only [readBits]; decide

theorem decodeCategory_congr (hn : extractUnsigned w 28 4 ≠ 0b1111#4)
    (h : v &&& readBits (decodeCategory c w) = w &&& readBits (decodeCategory c w)) :
    decodeCategory c v = decodeCategory c w := by
  have hmatch := (rowMatches_iff_decodeCategory_row hn c _).mpr rfl
  have hne : (decodeCategory c w).row ≠ 0 := fun h0 => hn ((rowMatches_zero w).mp (h0 ▸ hmatch))
  have hid3 := extractUnsigned_congr h 25 3 (readBits_covers_category hne (exists_row_of_rowMatches hmatch).1)
  unfold decodeCategory at h ⊢
  dsimp only at h ⊢
  rw [hid3]
  split_ifs at h ⊢
  · exact decodeVarious_congr c h
  · exact decodeDataProcessing_congr c h
  · exact decodeSingleDataTransfer_congr c h
  · exact decodeBlockDataTransfer_congr c h
  · exact decodeBranch_congr c h
  all_goals rfl

end

theorem decode_congr {v w : Word} (h : v &&& readBits (decode false w) = w &&& readBits (decode false w)) :
    decode false v = decode false w := by
  have hcond := extractUnsigned_congr h 28 4 (readBits_covers_cond (decode_row_lt w))
  change v &&& readBits (decodeArm w) = w &&& readBits (decodeArm w) at h
  change decodeArm v = decodeArm w
  unfold decodeArm at h ⊢
  rw [hcond]
  split at h
  next hc => simp only
  next c hc => exact decodeCategory_congr c (Cond.ne_reserved_of_ofBits_eq_some hc) h

theorem xor_unread_and (w x m : Word) : (w ^^^ (x &&& ~~~m)) &&& m = w &&& m := by
  rw [and_eq_and_iff_bits]
  intro i hi
  simp [hi]

/-- No meaning reads the word again: a form's result depends on the fetch address and the snapshot alone. -/
theorem resultOf_setOpcode (i : Instr) (s : State) (w : Word) : resultOf i { s with opcode := w } = resultOf i s := by
  cases i <;> rfl

end Sys2Proof.Machine

open Sys2Proof.Machine

/-- Settles O6: the changed word decodes to the same form, so the tree gives the same result. -/
theorem unreadBitsDoNotMatter : Obligations.UnreadBitsDoNotMatter := by
  intro s x hthumb
  have hinstr : ({ s with opcode := s.opcode ^^^ (x &&& ~~~ readBits s.instr) } : State).instr = s.instr := by
    rw [instr_eq, instr_eq, hthumb]
    exact decode_congr (xor_unread_and ..)
  apply sameOutputs_step_of_facade_eq
  rw [facade_eq_resultOf, facade_eq_resultOf, hinstr]
  exact (resultOf_setOpcode ..).symm

end

section
/-! PROOFS. BitField's slices as numbers (R110, R111): division by the offset's power and remainder by the width's. -/

namespace Sys2Proof

theorem extractUnsigned_toNat (v : Word) (o k : Nat) :
    (extractUnsigned v o k).toNat = v.toNat / 2 ^ o % 2 ^ k := by
  rw [extractUnsigned, BitVec.extractLsb'_toNat, Nat.shiftRight_eq_div_pow]

/-- The sign of a slice is its bit `width-1`, which stands at `offset+width-1` in the value. -/
theorem extractUnsigned_msb (v : Word) (o k : Nat) :
    (extractUnsigned v o k).msb = true ↔ 0 < k ∧ v.getLsbD (o + k - 1) = true := by
  rw [BitVec.msb_eq_getLsbD_last, extractUnsigned, BitVec.getLsbD_extractLsb', Bool.and_eq_true, decide_eq_true_iff,
    show k - 1 < k ↔ 0 < k by omega]
  refine and_congr_right fun hk => ?_
  rw [Nat.add_sub_assoc hk]

/-- Extending a slice of at most 32 bits keeps its two's-complement value. -/
theorem extractSigned_toInt (v : Word) (o : Nat) {k : Nat} (hk : k ≤ 32) :
    (extractSigned v o k).toInt = (extractUnsigned v o k).toInt :=
  BitVec.toInt_signExtend_of_le hk

end Sys2Proof

open Sys2Proof

/-- Settles O37: the signed slice is the unsigned one less `2^width` when its top bit is set. -/
theorem bitFieldReadsSlices : Obligations.BitFieldReadsSlices := by
  intro v o k hfit
  refine ⟨extractUnsigned_toNat v o k, ?_⟩
  rw [extractSigned_toInt v o (by omega), BitVec.toInt_eq_msb_cond, extractUnsigned_toNat]
  simp [extractUnsigned_msb]

end

section
/-! PROOFS. The hexadecimal number format (R121): a word is the number of its digits, stripping leading zeros keeps the number, and a stripped list begins with zero only when it is the single digit zero. -/

namespace Sys2Proof.Machine

/-! ### One digit -/

@[simp] theorem digitValue_hexDigit (d : BitVec 4) : digitValue (hexDigit d) = d.toNat := by revert d; decide

theorem hexDigit_mem (d : BitVec 4) : hexDigit d ∈ ascii "0123456789abcdef" := by revert d; decide

theorem hexDigit_eq_zero_iff (d : BitVec 4) : hexDigit d = 0x30#8 ↔ d = 0#4 := by revert d; decide

/-! ### The number of a digit list -/

/-- The number that a list of hexadecimal digits denotes, most significant first. -/
def digitsNumber (ds : List (BitVec 4)) : Nat := ds.foldl (fun acc d => 16 * acc + d.toNat) 0

theorem digitsNumber_zero_cons (ds : List (BitVec 4)) : digitsNumber (0#4 :: ds) = digitsNumber ds := rfl

theorem digitsNumber_stripZeros : ∀ ds : List (BitVec 4), digitsNumber (stripZeros ds) = digitsNumber ds
  | [] => rfl
  | [_] => rfl
  | d :: e :: ds => by
    by_cases hd : d = 0#4
    · rw [hd, stripZeros_zero_cons, digitsNumber_stripZeros (e :: ds), digitsNumber_zero_cons]
    · rw [stripZeros, if_neg hd]

theorem digitsNumber_nibbles (v : Word) : digitsNumber (nibbles v) = v.toNat := by
  have hv := v.isLt
  simp only [digitsNumber, nibbles, List.foldl_cons, List.foldl_nil, extractUnsigned_toNat]
  omega

/-- R121: only the single digit zero begins with zero after stripping. -/
theorem stripZeros_eq_of_head?_zero : ∀ ds : List (BitVec 4), (stripZeros ds).head? = some 0#4 → stripZeros ds = [0#4]
  | [], h => by cases h
  | [d], h => by
    obtain rfl : d = 0#4 := Option.some.inj h
    rfl
  | d :: e :: ds, h => by
    by_cases hd : d = 0#4
    · subst hd
      rw [stripZeros_zero_cons] at h ⊢
      exact stripZeros_eq_of_head?_zero (e :: ds) h
    · rw [stripZeros, if_neg hd] at h
      exact absurd (Option.some.inj h) hd

/-! ### The text -/

/-- What follows the `0x` of a number's text. -/
theorem hex_drop_two (v : Word) : (hex v).drop 2 = (stripZeros (nibbles v)).map hexDigit := rfl

theorem hexValue_hex (v : Word) : hexValue (hex v) = v.toNat := by
  calc hexValue (hex v) = digitsNumber (stripZeros (nibbles v)) := by
        simp only [hexValue, hex_drop_two, List.foldl_map, digitValue_hexDigit, digitsNumber]
    _ = v.toNat := by rw [digitsNumber_stripZeros, digitsNumber_nibbles]

theorem three_le_hex_length (v : Word) : 3 ≤ (hex v).length := by
  have hdigits := List.length_pos_iff.mpr (stripZeros_ne_nil (nibbles v) (by simp [nibbles]))
  rw [hex_length]
  omega

/-- R121: only `0x0` shows a leading zero. -/
theorem hex_eq_of_leading_zero {v : Word} (h : ((hex v).drop 2).head? = some 0x30#8) :
    v = 0#32 ∧ hex v = ascii "0x0" := by
  have hhead : (stripZeros (nibbles v)).head? = some 0#4 := by
    simpa [hex_drop_two, List.head?_map, Option.map_eq_some_iff, hexDigit_eq_zero_iff] using h
  have htext : hex v = ascii "0x0" := by rw [hex, stripZeros_eq_of_head?_zero _ hhead]; rfl
  have hzero : v.toNat = 0 := by rw [← hexValue_hex, htext]; rfl
  exact ⟨BitVec.eq_of_toNat_eq hzero, htext⟩

end Sys2Proof.Machine

open Sys2Proof.Machine

/-- Settles O40: stripping the leading zeros of the eight digits keeps the number and at least one digit. -/
theorem hexShowsTheNumber : Obligations.HexShowsTheNumber := by
  intro v
  refine ⟨hexValue_hex v, rfl, three_le_hex_length v, hex_length_le v, fun x hx => ?_, hex_eq_of_leading_zero⟩
  rw [hex_drop_two] at hx
  obtain ⟨d, -, rfl⟩ := List.mem_map.mp hx
  exact hexDigit_mem d

end

section
/-! PROOFS. A register list (R82, R124) in the library's terms: joining is intercalation, and the listed registers are the filtered indices in ascending order. -/

namespace Sys2Proof.Machine

theorem joinComma_eq_intercalate : ∀ ts : List Text, joinComma ts = List.intercalate (ascii ",") ts
  | [] => rfl
  | [t] => by simp
  | t :: u :: ts => by
    rw [joinComma_cons, List.intercalate_cons_cons, joinComma_eq_intercalate (u :: ts)]

theorem listed_eq_finRange (m : BitVec 16) :
    listed m = ((List.finRange 16).filter fun i => m[i]).map fun i => BitVec.ofNat 4 i.val := by
  rw [listed, ← List.map_coe_finRange_eq_range, List.filter_map, List.map_map]
  rfl

end Sys2Proof.Machine

open Sys2Proof.Machine

/-- Settles O41: the list joins the names of the listed registers. -/
theorem registerListIsAscending : Obligations.RegisterListIsAscending := by
  intro m
  rw [reglist, joinComma_eq_intercalate, listed_eq_finRange, List.map_map]
  rfl

end

section
/-! PROOFS. The two tables: register names (R112, R113) and condition suffixes (R116). -/

namespace Sys2Proof.Machine

/-- R113: no two distinct indices share a name. -/
theorem nameTable_injective : Function.Injective nameTable := by
  have hall : ∀ i j : BitVec 4, nameTable i = nameTable j → i = j := by decide
  exact fun i j => hall i j

/-- R112: the lookup keeps of an index exactly its remainder by 16. -/
theorem registerNamer_eq_iff (i j : Nat) : registerNamer i = registerNamer j ↔ i % 16 = j % 16 := by
  rw [registerNamer, registerNamer, nameTable_injective.eq_iff, ← BitVec.toNat_inj, BitVec.toNat_ofNat,
    BitVec.toNat_ofNat]

/-- R113: the general registers are `R` and the index in decimal. -/
theorem name_of_lt_13 : ∀ r : Reg, r.toNat < 13 → name r = ascii "R" ++ ascii (toString r.toNat) := by decide

end Sys2Proof.Machine

open Sys2Proof.Machine

/-- Settles O38: the sixteen names of the table are distinct, and the RegisterNamer looks them up modulo 16. -/
theorem registerNamesAreDistinct : Obligations.RegisterNamesAreDistinct :=
  ⟨by decide, name_of_lt_13, registerNamer_eq_iff⟩

/-- Settles O39: sixteen codes, each evaluated. -/
theorem conditionTableIsComplete : Obligations.ConditionTableIsComplete := by
  unfold Obligations.ConditionTableIsComplete
  decide

end

section
/-! PROOFS. The classifier (R141 to R150): what the decoder makes of the reserved condition and of a word of a named condition, the paths through the Various category and the words of no category. -/

namespace Sys2Proof

/-! ### The decoder's dispatches -/

/-- R141: on the 32-bit path four ones in the condition field decide alone. -/
theorem decode_reserved {w : Word} (h : extractUnsigned w 28 4 = 0b1111#4) : decode false w = .reservedCond := by
  change decodeArm w = _
  simp only [decodeArm, (Cond.ofBits_eq_none _).mpr h]

theorem decode_named {w : Word} {c : Cond} (h : Cond.ofBits (extractUnsigned w 28 4) = some c) :
    decode false w = decodeCategory c w := by
  change decodeArm w = _
  simp only [decodeArm, h]

section
variable {w : Word} (c : Cond)

/-! ### The category dispatch (R142), and the rows of no category (R149) -/

theorem decodeCategory_various (h : extractUnsigned w 25 3 = 0b000#3) : decodeCategory c w = decodeVarious c w := by
  simp [decodeCategory, h]

theorem decodeCategory_id3x6 (hmask : w &&& 0x0E000000#32 = 0x06000000#32) : decodeCategory c w = .unknownId3x6 c := by
  have hid3 : extractUnsigned w 25 3 = 0b011#3 := (and_categoryMask w (by decide)).mp hmask
  simp [decodeCategory, hid3]

theorem decodeCategory_id3xC (hmask : w &&& 0x0E000000#32 = 0x0C000000#32) : decodeCategory c w = .unknownId3xC c := by
  have hid3 : extractUnsigned w 25 3 = 0b110#3 := (and_categoryMask w (by decide)).mp hmask
  simp [decodeCategory, hid3]

theorem decodeCategory_id3xE (hmask : w &&& 0x0E000000#32 = 0x0E000000#32) : decodeCategory c w = .unknownId3xE c := by
  have hid3 : extractUnsigned w 25 3 = 0b111#3 := (and_categoryMask w (by decide)).mp hmask
  simp [decodeCategory, hid3]

/-! ### The paths through the Various category (R143, R144), each from its row of R85 -/

/-- Row `UnknownVariousOp` (R146): the path stops before the miscellaneous sub-group. -/
theorem decodeCategory_unknownVariousOp (hmask : w &&& 0x0E000000#32 = 0x00000000#32)
    (hmisc : ¬ (extractUnsigned w 23 2 = 0b10#2 ∧ bitAt w 20 = false)) :
    decodeCategory c w = .unknownVariousOp c (extractUnsigned w 23 2) (bitAt w 20) := by
  have hid3 := (and_categoryMask w (by decide)).mp hmask
  rw [decodeCategory_various c hid3]
  exact if_neg hmisc

/-- Row `UnknownMiscCategory` (R147): in the miscellaneous sub-group the path stops at `id4`. -/
theorem decodeCategory_unknownMiscCategory (hmask : w &&& 0x0F900000#32 = 0x01000000#32)
    (hid4 : extractUnsigned w 4 4 ≠ 0b0001#4) :
    decodeCategory c w = .unknownMiscCategory c (extractUnsigned w 4 4) := by
  obtain ⟨hid3, hid2, hupdate⟩ := (and_modeMask w (by decide)).mp hmask
  rw [decodeCategory_various c hid3]
  exact (if_pos ⟨hid2, hupdate⟩).trans (if_neg hid4)

/-- Row `UnknownMiscOther` (R148): past `id4` the path stops at `op`. -/
theorem decodeCategory_unknownMiscOther (hmask : w &&& 0x0F9000F0#32 = 0x01000010#32)
    (hop : extractUnsigned w 21 2 ≠ 0b01#2) :
    decodeCategory c w = .unknownMiscOther c (extractUnsigned w 21 2) := by
  obtain ⟨hid3, hid2, hupdate, hid4⟩ := (and_miscMask w (by decide)).mp hmask
  rw [decodeCategory_various c hid3]
  exact (if_pos ⟨hid2, hupdate⟩).trans ((if_pos hid4).trans (if_neg hop))

/-- Row `BX` (R145): the path that meets every check. -/
theorem decodeCategory_bx (hmask : w &&& 0x0FF000F0#32 = 0x01200010#32) :
    decodeCategory c w = .bx c (extractUnsigned w 0 4) := by
  obtain ⟨hid3, hid2, hupdate, hid4, hop⟩ := (and_exchangeMask w (by decide)).mp hmask
  rw [decodeCategory_various c hid3]
  exact (if_pos ⟨hid2, hupdate⟩).trans ((if_pos hid4).trans (if_pos hop))

end

end Sys2Proof

namespace Sys2Proof.Machine

/-! ### Steps -/

theorem step_eq_exec_of_instr {s : State} {i : Instr} (h : s.instr = i) : step s = exec i s := by
  rw [step, h]

/-- A step at a word of a named condition is the meaning of the form to which the row's mask leads the category dispatch. -/
theorem step_eq_exec_of_holds {s : State} {c : Cond} {mask pattern : Word} {i : Instr}
    (h : s.Holds c mask pattern) (hi : s.opcode &&& mask = pattern → decodeCategory c s.opcode = i) :
    step s = exec i s := by
  obtain ⟨hthumb, hcond, hmask⟩ := h
  apply step_eq_exec_of_instr
  rw [instr_eq, hthumb, decode_named hcond, hi hmask]

/-- R141, as a step from any state of the 32-bit path. -/
theorem step_eq_exec_of_reserved {s : State} (hthumb : s.thumb = false)
    (hcond : s.opcode.extractLsb' 28 4 = 0b1111#4) : step s = exec .reservedCond s := by
  apply step_eq_exec_of_instr
  rw [instr_eq, hthumb, decode_reserved hcond]

theorem render_ne_nil (r : Result) : render r ≠ [] := List.ne_nil_of_length_pos (render_length_bounds r).1

end Sys2Proof.Machine

open Sys2Proof Sys2Proof.Machine

/-- Settles O18: the condition field short-circuits the dispatch, and the form emits its sentinel. -/
theorem reservedConditionShowsSentinel : Obligations.ReservedConditionShowsSentinel :=
  ⟨fun _ => step_eq_exec_of_reserved, exec_eq .reservedCond⟩

/-- Settles O13: a step emits a rendered result, that result is the tree's on the four inputs, and the tree begins with the reserved condition. -/
theorem facadeIsTotalDeterministicAndRejectsReserved : Obligations.FacadeIsTotalDeterministicAndRejectsReserved := by
  refine ⟨fun s => ⟨_, step_eq s, render_ne_nil _, (render_length_bounds _).1⟩, ?_, ?_⟩
  · intro s t hthumb hopcode hpc hregs
    apply sameOutputs_step_of_facade_eq
    rw [hthumb, hopcode, hpc, hregs]
  · intro s x hthumb hopcode
    obtain ⟨hstep, hexec⟩ := reservedConditionShowsSentinel
    have hcond : s.opcode.extractLsb' 28 4 = 0b1111#4 := by
      rw [hopcode, BitVec.extractLsb'_append_eq_left]
    rw [hstep s hthumb hcond, hexec s]

/-- Settles O19: BX's mask meets every check of the Various category, and the form emits its register's name. -/
theorem branchExchangeNamesItsRegister : Obligations.BranchExchangeNamesItsRegister :=
  ⟨fun _ c h => step_eq_exec_of_holds h (decodeCategory_bx c), fun c m => exec_eq (.bx c m)⟩

/-- Settles O20: each row's mask and extra condition lead to the check that fails, and each form emits its sentinel. -/
theorem variousSentinelsNameTheFailedStep : Obligations.VariousSentinelsNameTheFailedStep :=
  ⟨fun _ c h hmisc => step_eq_exec_of_holds h fun hmask => decodeCategory_unknownVariousOp c hmask hmisc,
    fun _ c h hid4 => step_eq_exec_of_holds h fun hmask => decodeCategory_unknownMiscCategory c hmask hid4,
    fun _ c h hop => step_eq_exec_of_holds h fun hmask => decodeCategory_unknownMiscOther c hmask hop,
    fun c id2 u => exec_eq (.unknownVariousOp c id2 u),
    fun c id4 => exec_eq (.unknownMiscCategory c id4),
    fun c op => exec_eq (.unknownMiscOther c op)⟩

/-- Settles O21: the mask is the category field, and the three forms emit the same sentinel. -/
theorem noCategoryShowsUnknown : Obligations.NoCategoryShowsUnknown :=
  ⟨fun _ c h => step_eq_exec_of_holds h (decodeCategory_id3x6 c),
    fun _ c h => step_eq_exec_of_holds h (decodeCategory_id3xC c),
    fun _ c h => step_eq_exec_of_holds h (decodeCategory_id3xE c),
    fun c => exec_eq (.unknownId3x6 c), fun c => exec_eq (.unknownId3xC c), fun c => exec_eq (.unknownId3xE c)⟩

end

section
/-! PROOFS. The DataProcessing category (R160 to R164): the paths through its decoder, each from its row of R85, and the operand texts of SUB, ADD and MOV. -/

namespace Sys2Proof

/-! ### The paths through the DataProcessing category -/

section
variable {w : Word} (c : Cond)

theorem decodeCategory_dataProcessing (h : extractUnsigned w 25 3 = 0b001#3) :
    decodeCategory c w = decodeDataProcessing c w := by
  simp [decodeCategory, h]

/-- Row `SUB` (R161): the first sub-opcode that the decoder asks for. -/
theorem decodeCategory_sub (hmask : w &&& 0x0FE00000#32 = 0x02400000#32) :
    decodeCategory c w =
      .sub c (bitAt w 20) (extractUnsigned w 16 4) (extractUnsigned w 12 4) (extractUnsigned w 0 12) := by
  obtain ⟨hid3, hsub⟩ := (and_subOpcodeMask w (by decide)).mp hmask
  rw [decodeCategory_dataProcessing c hid3]
  exact if_pos hsub

/-- Row `ADD` (R162): the sub-opcode is not that of SUB. -/
theorem decodeCategory_add (hmask : w &&& 0x0FE00000#32 = 0x02800000#32) :
    decodeCategory c w =
      .add c (bitAt w 20) (extractUnsigned w 16 4) (extractUnsigned w 12 4) (extractUnsigned w 0 12) := by
  obtain ⟨hid3, hadd⟩ := (and_subOpcodeMask w (by decide)).mp hmask
  have hsub : extractUnsigned w 21 4 ≠ 0b0010#4 := hadd ▸ by decide
  rw [decodeCategory_dataProcessing c hid3]
  exact (if_neg hsub).trans (if_pos hadd)

/-- Row `MOV` (R163): the sub-opcode is neither that of SUB nor that of ADD, and `Rn` is dropped. -/
theorem decodeCategory_mov (hmask : w &&& 0x0FE00000#32 = 0x03A00000#32) :
    decodeCategory c w = .mov c (bitAt w 20) (extractUnsigned w 12 4) (extractUnsigned w 0 12) := by
  obtain ⟨hid3, hmov⟩ := (and_subOpcodeMask w (by decide)).mp hmask
  have hsub : extractUnsigned w 21 4 ≠ 0b0010#4 := hmov ▸ by decide
  have hadd : extractUnsigned w 21 4 ≠ 0b0100#4 := hmov ▸ by decide
  rw [decodeCategory_dataProcessing c hid3]
  exact (if_neg hsub).trans ((if_neg hadd).trans (if_pos hmov))

/-- Row `UnknownDataProcessing` (R164): the path that fails every check. -/
theorem decodeCategory_unknownDataProcessing (hmask : w &&& 0x0E000000#32 = 0x02000000#32)
    (hsub : extractUnsigned w 21 4 ≠ 0b0010#4) (hadd : extractUnsigned w 21 4 ≠ 0b0100#4)
    (hmov : extractUnsigned w 21 4 ≠ 0b1101#4) :
    decodeCategory c w = .unknownDataProcessing c (extractUnsigned w 21 4) := by
  have hid3 := (and_categoryMask w (by decide)).mp hmask
  rw [decodeCategory_dataProcessing c hid3]
  exact (if_neg hsub).trans ((if_neg hadd).trans (if_neg hmov))

end

end Sys2Proof

namespace Sys2Proof.Machine

/-! ### The texts, with the separators and the immediate's mark written out (R90, R91) -/

/-- The immediate as last operand: its separator and its mark are one literal. -/
theorem append_sep_immediate (t : Text) (i : BitVec 12) :
    t ++ sep ++ immediate i = t ++ ascii ", #" ++ hex (i.setWidth 32) := by
  rw [List.append_assoc, List.append_assoc]
  rfl

theorem renderThreeOperand_eq (base : Text) (c : Cond) (f : Bool) (d n : Reg) (i : BitVec 12) :
    renderThreeOperand base c f d n i = base ++ (if f then ascii "S" else []) ++ suffix c ++ ascii " " ++
      name d ++ ascii ", " ++ name n ++ ascii ", #" ++ hex (i.setWidth 32) :=
  append_sep_immediate _ i

theorem renderMove_eq (c : Cond) (f : Bool) (d : Reg) (i : BitVec 12) :
    renderMove c f d i = ascii "MOV" ++ (if f then ascii "S" else []) ++ suffix c ++ ascii " " ++
      name d ++ ascii ", #" ++ hex (i.setWidth 32) :=
  append_sep_immediate _ i

/-- A meaning shows its result with the text of that result. -/
theorem exec_eq_shows {i : Instr} {s : State} {t : Text} (h : render (resultOf i s) = t) :
    exec i s = .next (s.shows (resultOf i s) t) := by
  rw [exec_eq, emit_eq_shows, h]

end Sys2Proof.Machine

open Sys2Proof Sys2Proof.Machine

/-- Settles O22: SUB's mask leads to the decoder's first check, and the form emits the three-operand text. -/
theorem subtractShowsThreeOperands : Obligations.SubtractShowsThreeOperands :=
  ⟨fun _ c h => step_eq_exec_of_holds h (decodeCategory_sub c),
    fun c f n d i _ => exec_eq_shows (renderThreeOperand_eq (ascii "SUB") c f d n i)⟩

/-- Settles O23: ADD's mask leads past the check for SUB, and the form emits the three-operand text. -/
theorem addShowsThreeOperands : Obligations.AddShowsThreeOperands :=
  ⟨fun _ c h => step_eq_exec_of_holds h (decodeCategory_add c),
    fun c f n d i _ => exec_eq_shows (renderThreeOperand_eq (ascii "ADD") c f d n i)⟩

/-- Settles O24: MOV's mask leads past the checks for SUB and ADD, and the form emits the text of MOV. -/
theorem moveShowsTwoOperands : Obligations.MoveShowsTwoOperands :=
  ⟨fun _ c h => step_eq_exec_of_holds h (decodeCategory_mov c),
    fun c f d i _ => exec_eq_shows (renderMove_eq c f d i)⟩

/-- Settles O25: the mask is the category field, the three excluded sub-opcodes are the decoder's three checks, and the form emits its sentinel. -/
theorem otherSubOpcodesShowSentinel : Obligations.OtherSubOpcodesShowSentinel :=
  ⟨fun _ c h hsub hadd hmov => step_eq_exec_of_holds h fun hmask =>
      decodeCategory_unknownDataProcessing c hmask hsub hadd hmov,
    fun c dpop => exec_eq (.unknownDataProcessing c dpop)⟩

end

section
/-! PROOFS. The SingleDataTransfer category (R180 to R186): the four forms as one, told apart by `L` and `B`, with its path from the rows of R85 and its two texts. -/

namespace Sys2Proof

/-- The form that `L` and `B` choose (R180). -/
def transferForm : (load byte : Bool) → Cond → (u : Bool) → (rn rd : Reg) → BitVec 12 → Instr
  | false, false => .str
  | false, true => .strb
  | true, false => .ldr
  | true, true => .ldrb

/-! ### The path through the SingleDataTransfer category -/

section
variable {w p : Word} (c : Cond)

theorem decodeCategory_singleDataTransfer (h : extractUnsigned w 25 3 = 0b010#3) :
    decodeCategory c w = decodeSingleDataTransfer c w := by
  simp [decodeCategory, h]

theorem decodeSingleDataTransfer_eq_transferForm : decodeSingleDataTransfer c w =
    transferForm (bitAt w 20) (bitAt w 22) c (bitAt w 23) (extractUnsigned w 16 4) (extractUnsigned w 12 4)
      (extractUnsigned w 0 12) := by
  unfold decodeSingleDataTransfer
  cases bitAt w 20 <;> cases bitAt w 22 <;> rfl

/-- Rows `STR` to `LDRB`: a word that meets the row's mask is the form of the row's own `L` and `B`. -/
theorem decodeCategory_transferForm (hp : p &&& 0x0E500000#32 = p) (hid3 : extractUnsigned p 25 3 = 0b010#3)
    (hmask : w &&& 0x0E500000#32 = p) : decodeCategory c w =
      transferForm (bitAt p 20) (bitAt p 22) c (bitAt w 23) (extractUnsigned w 16 4) (extractUnsigned w 12 4)
        (extractUnsigned w 0 12) := by
  obtain ⟨hcategory, hload, hbyte⟩ := (and_loadByteMask w hp).mp hmask
  rw [decodeCategory_singleDataTransfer c (hcategory.trans hid3), decodeSingleDataTransfer_eq_transferForm, hload, hbyte]

end

end Sys2Proof

namespace Sys2Proof.Machine

/-! ### The two texts (R181), with the separator and the operand's mark, `[` or `=`, as one literal -/

section
variable (load byte : Bool)

theorem resultOf_transferForm (c : Cond) (u : Bool) (n d : Reg) (o : BitVec 12) (s : State) :
    resultOf (transferForm load byte c u n d o) s = singleTransfer s.regs c load byte u n d o := by
  cases load <;> cases byte <;> rfl

variable {base : Text} (hbase : ∀ c, transferMnemonic load byte c = base ++ suffix c)
include hbase

/-- R181 at offset zero: the base in brackets. -/
theorem exec_transferForm_zero (c : Cond) (u : Bool) (n d : Reg) (s : State) :
    exec (transferForm load byte c u n d 0#12) s = .next (s.shows (.sdtIndexed c load byte d n)
      (base ++ suffix c ++ ascii " " ++ name d ++ ascii ", [" ++ name n ++ ascii "]")) := by
  rw [exec_eq, resultOf_transferForm, singleTransfer_zero, emit_eq_shows, render, renderIndexed, hbase,
    List.append_assoc _ sep]
  rfl

/-- R181 and R182 at any other offset: the address, as an exact number narrowed. -/
theorem exec_transferForm_ne (c : Cond) (u : Bool) (n d : Reg) (o : BitVec 12) (s : State) (ho : o ≠ 0#12) :
    exec (transferForm load byte c u n d o) s = .next (s.shows (.sdtLiteral c load byte d (addressOf s.regs u n o))
      (base ++ suffix c ++ ascii " " ++ name d ++ ascii ", =" ++ hex (addressOf s.regs u n o))) := by
  rw [exec_eq, resultOf_transferForm, singleTransfer_ne _ _ _ _ _ _ _ ho, displayAddress_eq_addressOf, emit_eq_shows,
    render, renderLiteral, hbase, List.append_assoc _ sep]
  rfl

end

end Sys2Proof.Machine

open Sys2Proof Sys2Proof.Machine

/-- Settles O26: the row's pattern has `L = 0` and `B = 0`, and that form shows the two texts with `STR`. -/
theorem storeWordShowsItsOperand : Obligations.StoreWordShowsItsOperand :=
  ⟨fun _ c h => step_eq_exec_of_holds h (decodeCategory_transferForm c (by decide) (by decide)),
    exec_transferForm_zero false false fun _ => rfl, exec_transferForm_ne false false fun _ => rfl⟩

/-- Settles O27: the row's pattern has `L = 0` and `B = 1`, and that form shows the two texts with `STRB`. -/
theorem storeByteShowsItsOperand : Obligations.StoreByteShowsItsOperand :=
  ⟨fun _ c h => step_eq_exec_of_holds h (decodeCategory_transferForm c (by decide) (by decide)),
    exec_transferForm_zero false true fun _ => rfl, exec_transferForm_ne false true fun _ => rfl⟩

/-- Settles O28: the row's pattern has `L = 1` and `B = 0`, and that form shows the two texts with `LDR`. -/
theorem loadWordShowsItsOperand : Obligations.LoadWordShowsItsOperand :=
  ⟨fun _ c h => step_eq_exec_of_holds h (decodeCategory_transferForm c (by decide) (by decide)),
    exec_transferForm_zero true false fun _ => rfl, exec_transferForm_ne true false fun _ => rfl⟩

/-- Settles O29: the row's pattern has `L = 1` and `B = 1`, and that form shows the two texts with `LDRB`. -/
theorem loadByteShowsItsOperand : Obligations.LoadByteShowsItsOperand :=
  ⟨fun _ c h => step_eq_exec_of_holds h (decodeCategory_transferForm c (by decide) (by decide)),
    exec_transferForm_zero true true fun _ => rfl, exec_transferForm_ne true true fun _ => rfl⟩

end

section
/-! PROOFS. The BlockDataTransfer category (R200 to R206): the paths through its decoder, each from its row of R85, and the common text of the block transfers, for any base and for SP. -/

namespace Sys2Proof

/-! ### The paths through the BlockDataTransfer category -/

section
variable {w : Word} (c : Cond)

theorem decodeCategory_blockDataTransfer (h : extractUnsigned w 25 3 = 0b100#3) :
    decodeCategory c w = decodeBlockDataTransfer c w := by
  simp [decodeCategory, h]

/-- Row `UnknownAddressingMode` (R206): the path stops at the decoder's first check, the mode, so `L` and the base do not matter. -/
theorem decodeCategory_unknownAddressingMode (hmask : w &&& 0x0E000000#32 = 0x08000000#32)
    (hmode : extractUnsigned w 23 2 ≠ 0b10#2) :
    decodeCategory c w = .unknownAddressingMode c (extractUnsigned w 23 2) := by
  have hid3 := (and_categoryMask w (by decide)).mp hmask
  rw [decodeCategory_blockDataTransfer c hid3]
  exact if_pos hmode

/-- In the mode decrement-before, `L` and the SP base choose among the four other forms (R200). -/
theorem decodeBlockDataTransfer_decrementBefore (hmode : extractUnsigned w 23 2 = 0b10#2) :
    decodeBlockDataTransfer c w =
      if bitAt w 20 = false then
        if extractUnsigned w 16 4 = 13#4 then .stmfd c (bitAt w 21) (extractUnsigned w 0 16)
        else .stmdb c (bitAt w 21) (extractUnsigned w 16 4) (extractUnsigned w 0 16)
      else if extractUnsigned w 16 4 = 13#4 then .unknownSPLoadMultiple c
      else .ldmdb c (bitAt w 21) (extractUnsigned w 16 4) (extractUnsigned w 0 16) :=
  if_neg (not_not_intro hmode)

/-- Row `STMDB` (R202): `L = 0` with a base other than SP. -/
theorem decodeCategory_stmdb (hmask : w &&& 0x0F900000#32 = 0x09000000#32) (hbase : extractUnsigned w 16 4 ≠ 13#4) :
    decodeCategory c w = .stmdb c (bitAt w 21) (extractUnsigned w 16 4) (extractUnsigned w 0 16) := by
  obtain ⟨hid3, hmode, hstore⟩ := (and_modeMask w (by decide)).mp hmask
  rw [decodeCategory_blockDataTransfer c hid3, decodeBlockDataTransfer_decrementBefore c hmode]
  exact (if_pos hstore).trans (if_neg hbase)

/-- Row `STMFD` (R203): `L = 0` with the base SP, which is dropped. -/
theorem decodeCategory_stmfd (hmask : w &&& 0x0F9F0000#32 = 0x090D0000#32) :
    decodeCategory c w = .stmfd c (bitAt w 21) (extractUnsigned w 0 16) := by
  obtain ⟨hid3, hmode, hstore, hbase⟩ := (and_modeBaseMask w (by decide)).mp hmask
  rw [decodeCategory_blockDataTransfer c hid3, decodeBlockDataTransfer_decrementBefore c hmode]
  exact (if_pos hstore).trans (if_pos hbase)

/-- Row `LDMDB` (R204): `L = 1` with a base other than SP. -/
theorem decodeCategory_ldmdb (hmask : w &&& 0x0F900000#32 = 0x09100000#32) (hbase : extractUnsigned w 16 4 ≠ 13#4) :
    decodeCategory c w = .ldmdb c (bitAt w 21) (extractUnsigned w 16 4) (extractUnsigned w 0 16) := by
  obtain ⟨hid3, hmode, hload⟩ := (and_modeMask w (by decide)).mp hmask
  have hstore : ¬ bitAt w 20 = false := hload ▸ by decide
  rw [decodeCategory_blockDataTransfer c hid3, decodeBlockDataTransfer_decrementBefore c hmode]
  exact (if_neg hstore).trans (if_neg hbase)

/-- Row `UnknownSPLoadMultiple` (R205): past the mode, `L = 1` with the base SP. -/
theorem decodeCategory_unknownSPLoadMultiple (hmask : w &&& 0x0F9F0000#32 = 0x091D0000#32) :
    decodeCategory c w = .unknownSPLoadMultiple c := by
  obtain ⟨hid3, hmode, hload, hbase⟩ := (and_modeBaseMask w (by decide)).mp hmask
  have hstore : ¬ bitAt w 20 = false := hload ▸ by decide
  rw [decodeCategory_blockDataTransfer c hid3, decodeBlockDataTransfer_decrementBefore c hmode]
  exact (if_neg hstore).trans (if_pos hbase)

end

end Sys2Proof

namespace Sys2Proof.Machine

/-! ### The text of a block transfer (R201), with its two-part mnemonic, its separator and its braces written out -/

section
variable {base modetext mnemonic : Text} (hmnemonic : base ++ modetext = mnemonic) (c : Cond) (w : Bool) (l : BitVec 16)
include hmnemonic

theorem renderBlock_eq (n : Reg) : renderBlock base modetext c n w l = mnemonic ++ suffix c ++ ascii " " ++ name n ++
    (if w then ascii "!" else []) ++ ascii ", " ++ [0x7B#8] ++ reglist l ++ [0x7D#8] := by
  simp only [renderBlock, hmnemonic, bracedList, wb, sep, List.append_assoc]

/-- The base SP: the space and the name are one literal. -/
theorem renderBlock_sp_eq : renderBlock base modetext c 13#4 w l = mnemonic ++ suffix c ++ ascii " SP" ++
    (if w then ascii "!" else []) ++ ascii ", " ++ [0x7B#8] ++ reglist l ++ [0x7D#8] := by
  rw [renderBlock_eq hmnemonic, List.append_assoc _ (ascii " ")]
  rfl

end

end Sys2Proof.Machine

open Sys2Proof Sys2Proof.Machine

/-- Settles O30: STMDB's mask leads past the mode to a store whose base is not SP, and the form emits the common text. -/
theorem storeMultipleShowsBaseAndList : Obligations.StoreMultipleShowsBaseAndList :=
  ⟨fun _ c h hbase => step_eq_exec_of_holds h fun hmask => decodeCategory_stmdb c hmask hbase,
    fun c w n l _ => exec_eq_shows (renderBlock_eq rfl c w l n)⟩

/-- Settles O31: STMFD's mask fixes the base as well, and the form emits the common text at SP. -/
theorem stackStoreShowsFullDescending : Obligations.StackStoreShowsFullDescending :=
  ⟨fun _ c h => step_eq_exec_of_holds h (decodeCategory_stmfd c),
    fun c w l _ => exec_eq_shows (renderBlock_sp_eq rfl c w l)⟩

/-- Settles O32: LDMDB's mask leads past the mode to a load whose base is not SP, and the form emits the common text. -/
theorem loadMultipleShowsBaseAndList : Obligations.LoadMultipleShowsBaseAndList :=
  ⟨fun _ c h hbase => step_eq_exec_of_holds h fun hmask => decodeCategory_ldmdb c hmask hbase,
    fun c w n l _ => exec_eq_shows (renderBlock_eq rfl c w l n)⟩

/-- Settles O33: the mode check fails whatever the base, the SP check is reached in the mode decrement-before alone, and each form emits its sentinel. -/
theorem blockSentinelsFollowCheckOrder : Obligations.BlockSentinelsFollowCheckOrder :=
  ⟨fun _ c h => step_eq_exec_of_holds h (decodeCategory_unknownSPLoadMultiple c),
    fun _ c h hmode => step_eq_exec_of_holds h fun hmask => decodeCategory_unknownAddressingMode c hmask hmode,
    fun c => exec_eq (.unknownSPLoadMultiple c),
    fun c mode => exec_eq (.unknownAddressingMode c mode)⟩

end

section
/-! PROOFS. The Branch category (R220 to R222): the link bit chooses the form, each from its row of R85, and the shown target is the exact sum narrowed. -/

namespace Sys2Proof

/-! ### The paths through the Branch category -/

section
variable {w : Word} (c : Cond)

theorem decodeCategory_branch (h : extractUnsigned w 25 3 = 0b101#3) : decodeCategory c w = decodeBranch c w := by
  simp [decodeCategory, h]

/-- Row `B` (R221): the link bit is clear. -/
theorem decodeCategory_b (hmask : w &&& 0x0F000000#32 = 0x0A000000#32) :
    decodeCategory c w = .b c (extractUnsigned w 0 24) := by
  obtain ⟨hid3, hlink⟩ := (and_linkMask w (by decide)).mp hmask
  have hclear : ¬ bitAt w 24 = true := hlink ▸ by decide
  rw [decodeCategory_branch c hid3]
  exact if_neg hclear

/-- Row `BL` (R222): the link bit is set. -/
theorem decodeCategory_bl (hmask : w &&& 0x0F000000#32 = 0x0B000000#32) :
    decodeCategory c w = .bl c (extractUnsigned w 0 24) := by
  obtain ⟨hid3, hlink⟩ := (and_linkMask w (by decide)).mp hmask
  rw [decodeCategory_branch c hid3]
  exact if_pos hlink

end

end Sys2Proof

namespace Sys2Proof.Machine

/-! ### The meanings, with the target of R220 as an exact number narrowed -/

theorem exec_b (c : Cond) (i : BitVec 24) (s : State) :
    exec (.b c i) s = .next (s.emit (.b c (targetOf s.pc i))) := by
  rw [exec_eq, resultOf, branchTarget_eq_targetOf]

theorem exec_bl (c : Cond) (i : BitVec 24) (s : State) :
    exec (.bl c i) s = .next (s.emit (.bl c (targetOf s.pc i))) := by
  rw [exec_eq, resultOf, branchTarget_eq_targetOf]

end Sys2Proof.Machine

open Sys2Proof Sys2Proof.Machine

/-- Settles O34: B's mask is the category with the link bit clear, and the form emits the text of its target. -/
theorem branchShowsItsTarget : Obligations.BranchShowsItsTarget :=
  ⟨fun _ c h => step_eq_exec_of_holds h (decodeCategory_b c), exec_b⟩

/-- Settles O35: BL's mask is the category with the link bit set, and the form emits the text of its target. -/
theorem branchLinkShowsItsTarget : Obligations.BranchLinkShowsItsTarget :=
  ⟨fun _ c h => step_eq_exec_of_holds h (decodeCategory_bl c), exec_bl⟩

end

section
/-! PROOFS. The 16-bit path (R230): the path select alone decides the form, no condition field is read, and the form's meaning reads nothing of its halfword. -/

namespace Sys2Proof.Machine

theorem decode_thumb (w : Word) : decode true w = .unknownThumb (extractUnsigned w 0 16) := rfl

theorem exec_unknownThumb (h : BitVec 16) (s : State) :
    exec (.unknownThumb h) s = .next (s.shows .unknownThumb (ascii "unknown thumb instruction")) :=
  exec_eq_shows (i := .unknownThumb h) rfl

/-- R230, as a step from any state of the 16-bit path: the word reaches the meaning as its low halfword only. -/
theorem step_eq_exec_of_thumb {s : State} (hthumb : s.thumb = true) :
    step s = exec (.unknownThumb (extractUnsigned s.opcode 0 16)) s := by
  apply step_eq_exec_of_instr
  rw [instr_eq, hthumb, decode_thumb]

end Sys2Proof.Machine

open Sys2Proof.Machine

/-- Settles O36: the 16-bit path leads every word to one form, and that form emits its sentinel for every halfword. -/
theorem thumbPathShowsSentinel : Obligations.ThumbPathShowsSentinel :=
  ⟨fun s hthumb => (step_eq_exec_of_thumb hthumb).trans (exec_unknownThumb _ s), exec_unknownThumb⟩

end

section
/-! PROOFS. Exceptions (R240, R241): there is no fault and no refusal, and an encoding the block cannot decode is reported by a sentinel variant, which no implemented form gives. -/

namespace Sys2Proof.Machine

/-- Both forms of a single transfer, the indexed and the literal, are decoded results (R181, R241). -/
@[simp] theorem singleTransfer_isSentinel (regs : Vector Word 16) (c l b u n d o) :
    (singleTransfer regs c l b u n d o).isSentinel = false := by
  by_cases ho : o = 0#12
  · rw [ho, singleTransfer_zero]
    rfl
  · rw [singleTransfer_ne _ _ _ _ _ _ _ ho]
    rfl

/-- R86, R241: the sentinel variants are the results of the forms that are not implemented. The single transfers alone choose between two variants; the form of any other instruction names its variant. -/
theorem resultOf_isSentinel (i : Instr) (s : State) : (resultOf i s).isSentinel = !implemented i := by
  cases i with
  | str | strb | ldr | ldrb => exact singleTransfer_isSentinel ..
  | _ => rfl

end Sys2Proof.Machine

open Sys2Proof.Machine

/-- Settles O8: a step emits the rendered result of the instruction at the ports, so it has one outcome, a next state, and that result is a sentinel as the instruction's form says. -/
theorem everyInputHasOneNextResult : Obligations.EveryInputHasOneNextResult := by
  intro s
  rw [step_eq]
  exact ⟨nofun, nofun, _, rfl, fun _ hnext => (Host.Outcome.next.inj hnext).symm, render_ne_nil _,
    resultOf_isSentinel s.instr s⟩

end

section
/-! PROOFS. The encoder against the decoder (R71 to R78, R85, R88): what each packed word decodes to, the extra condition of every decoded form, and each packed word as the masked word that its fields come from. -/

namespace Sys2Proof

/-! ### What a packed word decodes to: the category's decoder on it -/

theorem decode_packVarious (c : Cond) (id2 op : BitVec 2) (u : Bool) (id4 rm : BitVec 4) :
    decode false (packVarious c id2 op u id4 rm) = decodeVarious c (packVarious c id2 op u id4 rm) := by
  rw [decode_named (by rw [packVarious_cond, Cond.ofBits_bits]), decodeCategory_various c (packVarious_id3 ..)]

theorem decode_packDataProcessing (c : Cond) (dpop : BitVec 4) (s : Bool) (rn rd : Reg) (imm : BitVec 12) :
    decode false (packDataProcessing c dpop s rn rd imm) =
      decodeDataProcessing c (packDataProcessing c dpop s rn rd imm) := by
  rw [decode_named (by rw [packDataProcessing_cond, Cond.ofBits_bits]),
    decodeCategory_dataProcessing c (packDataProcessing_id3 ..)]

theorem decode_packSingleDataTransfer (c : Cond) (u b l : Bool) (rn rd : Reg) (off : BitVec 12) :
    decode false (packSingleDataTransfer c u b l rn rd off) = transferForm l b c u rn rd off := by
  rw [decode_named (by rw [packSingleDataTransfer_cond, Cond.ofBits_bits]),
    decodeCategory_singleDataTransfer c (packSingleDataTransfer_id3 ..), decodeSingleDataTransfer_eq_transferForm]
  simp

theorem decode_packBlockDataTransfer (c : Cond) (mode : BitVec 2) (w l : Bool) (rn : Reg) (list : BitVec 16) :
    decode false (packBlockDataTransfer c mode w l rn list) =
      decodeBlockDataTransfer c (packBlockDataTransfer c mode w l rn list) := by
  rw [decode_named (by rw [packBlockDataTransfer_cond, Cond.ofBits_bits]),
    decodeCategory_blockDataTransfer c (packBlockDataTransfer_id3 ..)]

theorem decode_packBranch (c : Cond) (lk : Bool) (imm : BitVec 24) :
    decode false (packBranch c lk imm) = if lk then .bl c imm else .b c imm := by
  rw [decode_named (by rw [packBranch_cond, Cond.ofBits_bits]), decodeCategory_branch c (packBranch_id3 ..),
    decodeBranch, packBranch_lk, packBranch_imm24]

theorem decode_packUnknown (c : Cond) (id3 : BitVec 3) :
    decode false (packUnknown c id3) = decodeCategory c (packUnknown c id3) :=
  decode_named (by rw [packUnknown_cond, Cond.ofBits_bits])

/-- The extra condition of row 4, as the decoder asks for its opposite (R143). -/
theorem unknownVariousOp_wf_iff (c : Cond) (id2 : BitVec 2) (u : Bool) :
    (Instr.unknownVariousOp c id2 u).wf = true ↔ ¬ (id2 = 0b10#2 ∧ u = false) := by
  simp [Instr.wf, imp_iff_not_or]

/-- A well-formed form is what its word decodes to: the fields read back, and the extra condition keeps the decoder from an earlier row. -/
theorem decode_encode (i : Instr) (hwf : i.wf = true) : decode (encode i).thumb (encode i).opcode = i := by
  cases i with
  | reservedCond => exact decode_reserved encode_reserved_cond
  | bx | unknownMiscOther | unknownMiscCategory =>
    simp_all [Instr.wf, encode, decode_packVarious, decodeVarious]
  | unknownVariousOp c id2 u =>
    rw [unknownVariousOp_wf_iff] at hwf
    simp [encode, decode_packVarious, decodeVarious, hwf]
  | sub | add | mov | unknownDataProcessing =>
    simp_all [Instr.wf, encode, decode_packDataProcessing, decodeDataProcessing]
  | str | strb | ldr | ldrb => exact decode_packSingleDataTransfer ..
  | stmdb | stmfd | ldmdb | unknownSPLoadMultiple | unknownAddressingMode =>
    simp_all [Instr.wf, encode, decode_packBlockDataTransfer, decodeBlockDataTransfer]
  | b | bl => exact decode_packBranch ..
  | unknownId3x6 | unknownId3xC | unknownId3xE => simp [encode, decode_packUnknown, decodeCategory]
  | unknownThumb h => exact congrArg Instr.unknownThumb (encode_thumb_halfword h)

/-! ### Every decoded form meets its row's extra condition -/

theorem decodeVarious_wf (c : Cond) (w : Word) : (decodeVarious c w).wf = true := by
  unfold decodeVarious
  dsimp only
  split_ifs with hmisc hid4 hop
  · rfl
  · simpa [Instr.wf] using hop
  · simpa [Instr.wf] using hid4
  · exact (unknownVariousOp_wf_iff ..).mpr hmisc

theorem decodeDataProcessing_wf (c : Cond) (w : Word) : (decodeDataProcessing c w).wf = true := by
  unfold decodeDataProcessing
  dsimp only
  split_ifs with hsub hadd hmov
  · rfl
  · rfl
  · rfl
  · simp [Instr.wf, hsub, hadd, hmov]

theorem decodeSingleDataTransfer_wf (c : Cond) (w : Word) : (decodeSingleDataTransfer c w).wf = true := by
  unfold decodeSingleDataTransfer
  split <;> rfl

theorem decodeBlockDataTransfer_wf (c : Cond) (w : Word) : (decodeBlockDataTransfer c w).wf = true := by
  unfold decodeBlockDataTransfer
  dsimp only
  split_ifs with hmode hload hsp hsp
  · simpa [Instr.wf] using hmode
  · rfl
  · simpa [Instr.wf] using hsp
  · rfl
  · simpa [Instr.wf] using hsp

theorem decodeBranch_wf (c : Cond) (w : Word) : (decodeBranch c w).wf = true := by
  unfold decodeBranch
  split_ifs <;> rfl

theorem decodeCategory_wf (c : Cond) (w : Word) : (decodeCategory c w).wf = true := by
  unfold decodeCategory
  dsimp only
  split_ifs
  · exact decodeVarious_wf c w
  · exact decodeDataProcessing_wf c w
  · exact decodeSingleDataTransfer_wf c w
  · exact decodeBlockDataTransfer_wf c w
  · exact decodeBranch_wf c w
  all_goals rfl

/-- R84: whatever path of the tree a word takes. -/
theorem decode_wf (thumb : Bool) (w : Word) : (decode thumb w).wf = true := by
  cases thumb with
  | true => rfl
  | false =>
    change (decodeArm w).wf = true
    unfold decodeArm
    split
    next => rfl
    next c _ => exact decodeCategory_wf c w

/-! ### The fields of a word determine it, whichever of the formats R71 to R77 divides it into fields -/

/-- Words that agree on fields that cover all 32 bits are equal. -/
theorem eq_iff_fields (fs : List (Nat × Nat)) (hall : fieldsMask fs = BitVec.allOnes 32) (w v : Word) :
    w = v ↔ ∀ f ∈ fs, extractUnsigned w f.1 f.2 = extractUnsigned v f.1 f.2 := by
  rw [← and_fieldsMask_eq_iff, hall, BitVec.and_allOnes, BitVec.and_allOnes]

/-- A field that a mask covers is kept by masking. -/
@[simp] theorem extractUnsigned_and_of_covers (w : Word) {m : Word} {o k : Nat} (h : extractUnsigned m o k = BitVec.allOnes k) :
    extractUnsigned (w &&& m) o k = extractUnsigned w o k := (extractUnsigned_of_mask rfl o k h).symm

/-- A field that a mask leaves out is cleared by masking. -/
@[simp] theorem extractUnsigned_and_of_clears (w : Word) {m : Word} {o k : Nat} (h : extractUnsigned m o k = 0#k) :
    extractUnsigned (w &&& m) o k = 0#k := by
  rw [extractUnsigned, BitVec.extractLsb'_and, ← extractUnsigned, ← extractUnsigned, h, BitVec.and_zero]

@[simp] theorem bitAt_and_of_covers (w : Word) {m : Word} {i : Nat} (h : bitAt m i = true) : bitAt (w &&& m) i = bitAt w i :=
  (bitAt_of_mask rfl i h).symm

@[simp] theorem bitAt_and_of_clears (w : Word) {m : Word} {i : Nat} (h : bitAt m i = false) : bitAt (w &&& m) i = false := by
  rw [bitAt, BitVec.getLsbD_and, ← bitAt, ← bitAt, h, Bool.and_false]

@[simp] theorem packVarious_unread (c : Cond) (id2 op : BitVec 2) (u : Bool) (id4 rm : BitVec 4) :
    extractUnsigned (packVarious c id2 op u id4 rm) 8 12 = 0#12 := by
  apply BitVec.eq_of_getLsbD_eq
  intro i hi
  simp only [extractUnsigned, packVarious, bit1, BitVec.getLsbD_extractLsb', BitVec.getLsbD_append]
  interval_cases i <;> simp

@[simp] theorem packSingleDataTransfer_bit24 (c : Cond) (u b l : Bool) (rn rd : Reg) (off : BitVec 12) :
    bitAt (packSingleDataTransfer c u b l rn rd off) 24 = false := by
  simp only [bitAt, packSingleDataTransfer, bit1, BitVec.getLsbD_append]
  simp

@[simp] theorem packSingleDataTransfer_bit21 (c : Cond) (u b l : Bool) (rn rd : Reg) (off : BitVec 12) :
    bitAt (packSingleDataTransfer c u b l rn rd off) 21 = false := by
  simp only [bitAt, packSingleDataTransfer, bit1, BitVec.getLsbD_append]
  simp

@[simp] theorem packBlockDataTransfer_bit22 (c : Cond) (mode : BitVec 2) (w l : Bool) (rn : Reg) (list : BitVec 16) :
    bitAt (packBlockDataTransfer c mode w l rn list) 22 = false := by
  simp only [bitAt, packBlockDataTransfer, bit1, BitVec.getLsbD_append]
  simp

@[simp] theorem packUnknown_unread (c : Cond) (id3 : BitVec 3) : extractUnsigned (packUnknown c id3) 0 25 = 0#25 := by
  exact BitVec.extractLsb'_append_eq_right

section
variable (c : Cond) (v : Word)

theorem packVarious_eq_iff (id2 op : BitVec 2) (u : Bool) (id4 rm : BitVec 4) :
    packVarious c id2 op u id4 rm = v ↔
      c.bits = extractUnsigned v 28 4 ∧ 0b000#3 = extractUnsigned v 25 3 ∧ id2 = extractUnsigned v 23 2 ∧
      op = extractUnsigned v 21 2 ∧ u = bitAt v 20 ∧ 0#12 = extractUnsigned v 8 12 ∧
      id4 = extractUnsigned v 4 4 ∧ rm = extractUnsigned v 0 4 := by
  simp [eq_iff_fields [(28, 4), (25, 3), (23, 2), (21, 2), (20, 1), (8, 12), (4, 4), (0, 4)] (by decide),
    extractUnsigned_one_eq_iff]

theorem packDataProcessing_eq_iff (dpop : BitVec 4) (s : Bool) (rn rd : Reg) (imm : BitVec 12) :
    packDataProcessing c dpop s rn rd imm = v ↔
      c.bits = extractUnsigned v 28 4 ∧ 0b001#3 = extractUnsigned v 25 3 ∧ dpop = extractUnsigned v 21 4 ∧
      s = bitAt v 20 ∧ rn = extractUnsigned v 16 4 ∧ rd = extractUnsigned v 12 4 ∧ imm = extractUnsigned v 0 12 := by
  simp [eq_iff_fields [(28, 4), (25, 3), (21, 4), (20, 1), (16, 4), (12, 4), (0, 12)] (by decide),
    extractUnsigned_one_eq_iff]

theorem packSingleDataTransfer_eq_iff (u b l : Bool) (rn rd : Reg) (off : BitVec 12) :
    packSingleDataTransfer c u b l rn rd off = v ↔
      c.bits = extractUnsigned v 28 4 ∧ 0b010#3 = extractUnsigned v 25 3 ∧ false = bitAt v 24 ∧ u = bitAt v 23 ∧
      b = bitAt v 22 ∧ false = bitAt v 21 ∧ l = bitAt v 20 ∧ rn = extractUnsigned v 16 4 ∧
      rd = extractUnsigned v 12 4 ∧ off = extractUnsigned v 0 12 := by
  simp [eq_iff_fields [(28, 4), (25, 3), (24, 1), (23, 1), (22, 1), (21, 1), (20, 1), (16, 4), (12, 4), (0, 12)]
    (by decide), extractUnsigned_one_eq_iff]

theorem packBlockDataTransfer_eq_iff (mode : BitVec 2) (w l : Bool) (rn : Reg) (list : BitVec 16) :
    packBlockDataTransfer c mode w l rn list = v ↔
      c.bits = extractUnsigned v 28 4 ∧ 0b100#3 = extractUnsigned v 25 3 ∧ mode = extractUnsigned v 23 2 ∧
      false = bitAt v 22 ∧ w = bitAt v 21 ∧ l = bitAt v 20 ∧ rn = extractUnsigned v 16 4 ∧
      list = extractUnsigned v 0 16 := by
  simp [eq_iff_fields [(28, 4), (25, 3), (23, 2), (22, 1), (21, 1), (20, 1), (16, 4), (0, 16)] (by decide),
    extractUnsigned_one_eq_iff]

theorem packBranch_eq_iff (lk : Bool) (imm : BitVec 24) :
    packBranch c lk imm = v ↔
      c.bits = extractUnsigned v 28 4 ∧ 0b101#3 = extractUnsigned v 25 3 ∧ lk = bitAt v 24 ∧
      imm = extractUnsigned v 0 24 := by
  simp [eq_iff_fields [(28, 4), (25, 3), (24, 1), (0, 24)] (by decide), extractUnsigned_one_eq_iff]

theorem packUnknown_eq_iff (id3 : BitVec 3) :
    packUnknown c id3 = v ↔
      c.bits = extractUnsigned v 28 4 ∧ id3 = extractUnsigned v 25 3 ∧ 0#25 = extractUnsigned v 0 25 := by
  simp [eq_iff_fields [(28, 4), (25, 3), (0, 25)] (by decide)]

end

end Sys2Proof

namespace Sys2Proof.Machine

/-! ### Encoding what a category's decoder gives -/

section
variable {c : Cond} {w : Word} (hc : extractUnsigned w 28 4 = c.bits)
include hc

theorem encode_decodeVarious (h : extractUnsigned w 25 3 = 0b000#3) :
    encode (decodeVarious c w) = ⟨false, w &&& readBits (decodeVarious c w)⟩ := by
  unfold decodeVarious
  dsimp only
  split_ifs with hmisc hid4 hop <;>
    simp (disch := decide) [encode, readBits, packVarious_eq_iff, *]

theorem encode_decodeDataProcessing (h : extractUnsigned w 25 3 = 0b001#3) :
    encode (decodeDataProcessing c w) = ⟨false, w &&& readBits (decodeDataProcessing c w)⟩ := by
  unfold decodeDataProcessing
  dsimp only
  split_ifs with hsub hadd hmov <;>
    simp (disch := decide) [encode, readBits, packDataProcessing_eq_iff, *]

theorem encode_decodeSingleDataTransfer (h : extractUnsigned w 25 3 = 0b010#3) :
    encode (decodeSingleDataTransfer c w) = ⟨false, w &&& readBits (decodeSingleDataTransfer c w)⟩ := by
  unfold decodeSingleDataTransfer
  dsimp only
  split <;>
    simp (disch := decide) [encode, readBits, packSingleDataTransfer_eq_iff, *]

theorem encode_decodeBlockDataTransfer (h : extractUnsigned w 25 3 = 0b100#3) :
    encode (decodeBlockDataTransfer c w) = ⟨false, w &&& readBits (decodeBlockDataTransfer c w)⟩ := by
  by_cases hmode : extractUnsigned w 23 2 = 0b10#2
  · rw [decodeBlockDataTransfer_decrementBefore c hmode]
    split_ifs with hstore hsp hsp <;> simp (disch := decide) [encode, readBits, packBlockDataTransfer_eq_iff, *]
  · have hform : decodeBlockDataTransfer c w = .unknownAddressingMode c (extractUnsigned w 23 2) := if_pos hmode
    rw [hform]
    simp (disch := decide) [encode, readBits, packBlockDataTransfer_eq_iff, hc, h]

theorem encode_decodeBranch (h : extractUnsigned w 25 3 = 0b101#3) :
    encode (decodeBranch c w) = ⟨false, w &&& readBits (decodeBranch c w)⟩ := by
  unfold decodeBranch
  split_ifs with hlink <;>
    simp (disch := decide) [encode, readBits, packBranch_eq_iff, *]

/-- R149: a word of no category, as the row of its `id3`. -/
theorem packUnknown_eq_and {id3 : BitVec 3} (h : extractUnsigned w 25 3 = id3) :
    packUnknown c id3 = w &&& 0xFE000000#32 := by
  simp (disch := decide) [packUnknown_eq_iff, hc, h]

theorem encode_decodeCategory : encode (decodeCategory c w) = ⟨false, w &&& readBits (decodeCategory c w)⟩ := by
  unfold decodeCategory
  dsimp only
  split_ifs with h0 h1 h2 h4 h5 h3 h6
  · exact encode_decodeVarious hc h0
  · exact encode_decodeDataProcessing hc h1
  · exact encode_decodeSingleDataTransfer hc h2
  · exact encode_decodeBlockDataTransfer hc h4
  · exact encode_decodeBranch hc h5
  · exact congrArg (Encoded.mk false) (packUnknown_eq_and hc h3)
  · exact congrArg (Encoded.mk false) (packUnknown_eq_and hc h6)
  · have h7 : extractUnsigned w 25 3 = 0b111#3 := by bv_omega
    exact congrArg (Encoded.mk false) (packUnknown_eq_and hc h7)

end

theorem encode_decode (w : Word) : encode (decode false w) = ⟨false, w &&& readBits (decode false w)⟩ := by
  change encode (decodeArm w) = ⟨false, w &&& readBits (decodeArm w)⟩
  unfold decodeArm
  split
  next hc =>
    have hreserved := (Cond.ofBits_eq_none _).mp hc
    refine congrArg (Encoded.mk false) ?_
    simp (disch := decide) [readBits, eq_iff_fields [(28, 4), (0, 28)], hreserved]
    decide
  next c hc => exact encode_decodeCategory ((Cond.ofBits_eq_some _ c).mp hc)

end Sys2Proof.Machine

open Sys2Proof Sys2Proof.Machine

/-- Settles O2: every field of a packed word reads back, and a well-formed form's extra condition keeps the decoder on its row. -/
theorem decodeEncodeRoundTrip : Obligations.DecodeEncodeRoundTrip := decode_encode

/-- Settles O3: the packed word and the masked word agree on every field of the format. -/
theorem encodeKeepsEveryReadBit : Obligations.EncodeKeepsEveryReadBit := encode_decode

/-- Settles O4: on each path of the tree the checks that failed before it are the row's extra condition. -/
theorem decodedFormsAreWellFormed : Obligations.DecodedFormsAreWellFormed := decode_wf

end

section
/-! PROOFS. What a step and a drive do to the ports (R20, R28, R270): the inputs stay, and the outputs become the function of the present inputs, whatever they were. -/

namespace Sys2Proof.Machine

/-- An instruction's next state, named. -/
theorem exec_eq_next {i : Instr} {s t : State} (h : exec i s = .next t) : t = s.emit (resultOf i s) := by
  rw [exec_eq] at h
  exact (Host.Outcome.next.inj h).symm

/-! ### Settled states -/

theorem settled_settle (s : State) : s.settle.Settled := by
  rw [settle_eq, ← facade_eq_resultOf]
  exact ⟨rfl, rfl, rfl⟩

theorem settled_drive (s : State) (t o p r) : (s.drive t o p r).Settled := settled_settle _

theorem settled_of_step {s t : State} (h : step s = .next t) : t.Settled := by
  rw [step_eq_settle] at h
  exact Host.Outcome.next.inj h ▸ settled_settle s

/-- A decode of inputs whose outputs are settled changes nothing. -/
theorem step_eq_self_of_settled {s : State} (h : s.Settled) : step s = .next s := by
  obtain ⟨hresult, htext, hlen⟩ := h
  rw [stepFollowsClassificationTree, ← hresult, ← htext, State.shows, ← hlen]

/-- What a state held before a drive plays no part in the state after it. -/
theorem drive_congr (s u : State) (t o p r) : s.drive t o p r = u.drive t o p r := by
  have hresult : resultOf (decode t o) (s.setInputs t o p r) = resultOf (decode t o) (u.setInputs t o p r) :=
    (facade_eq_resultOf (s.setInputs t o p r)).symm.trans (facade_eq_resultOf (u.setInputs t o p r))
  rw [drive_eq, drive_eq, hresult, emit_setInputs_congr s u]

/-- Log entries 1 and 2: the reset outputs are the decode of the reset inputs. -/
theorem step_reset : step State.reset = .next State.reset := rfl

theorem settled_of_reachable {s : State} (h : Reachable s) : s.Settled := by
  cases h with
  | powerUp => exact settled_of_step step_reset
  | drive => exact settled_drive ..
  | step _ hs => exact settled_of_step hs

end Sys2Proof.Machine

open Sys2Proof Sys2Proof.Machine

/-- Settles O50: a step and a drive both end in a settling. -/
theorem stepAndDriveKeepOutputsSettled : Obligations.StepAndDriveKeepOutputsSettled :=
  fun s _ => ⟨fun _ => settled_of_step, settled_drive s⟩

/-- Settles O51: the state at power-up is settled, and every drive and every step settle the state they lead to. -/
theorem outputsFollowInputsAtEveryMoment : Obligations.OutputsFollowInputsAtEveryMoment :=
  ⟨fun _ => settled_of_reachable, drive_congr, fun s t o p r =>
    ⟨settled_drive s t o p r, drive_thumb s t o p r, drive_opcode s t o p r, drive_pc s t o p r, drive_regs s t o p r⟩⟩

/-- Settles O9: an instruction emits a result, and an emit writes the outputs only. -/
theorem execChangesOutputsOnly : Obligations.ExecChangesOutputsOnly := by
  intro i s t h
  obtain rfl := exec_eq_next h
  exact ⟨emit_thumb .., emit_opcode .., emit_pc .., fun _ => rfl, emit_regs ..⟩

/-- Settles O7: the instruction at the ports is the decoded one. -/
theorem stepRunsDecodedInstruction : Obligations.StepRunsDecodedInstruction :=
  fun _ _ hdecode _ => step_eq_exec_of_instr hdecode

/-- Settles O14: a step settles the outputs, and a settled state steps to itself. -/
theorem repeatedDecodeIsStable : Obligations.RepeatedDecodeIsStable :=
  fun _ _ h => step_eq_self_of_settled (settled_of_step h)

end

section
/-! PROOFS. What the outputs depend on (R22, R23, R182): the base register of a literal transfer, and the fetch address in the Branch category alone. -/

namespace Sys2Proof.Machine

/-! ### The base of a literal transfer -/

theorem baseValue_eq_iff (regs regs' : Vector Word 16) (rn : Reg) :
    baseValue regs rn = baseValue regs' rn ↔ regs[rn.toFin] = regs'[rn.toFin] := by
  unfold baseValue
  split <;> simp [readSnapshot_eq]

/-- R182: at one offset, different base values give different addresses, in either direction. -/
theorem displayAddress_eq_iff (regs regs' : Vector Word 16) (u : Bool) (rn : Reg) (off12 : BitVec 12) :
    displayAddress regs u rn off12 = displayAddress regs' u rn off12 ↔ regs[rn.toFin] = regs'[rn.toFin] := by
  cases u <;> simp [displayAddress, baseValue_eq_iff]

theorem instr_of_inCategory_singleDataTransfer {s : State} (h : s.InCategory 0b010#3) :
    ∃ c, s.instr = transferForm (bitAt s.opcode 20) (bitAt s.opcode 22) c (bitAt s.opcode 23)
      (extractUnsigned s.opcode 16 4) (extractUnsigned s.opcode 12 4) (extractUnsigned s.opcode 0 12) := by
  obtain ⟨hthumb, hnamed, hid3⟩ := h
  obtain ⟨c, hc⟩ := Option.ne_none_iff_exists'.mp (mt (Cond.ofBits_eq_none _).mp hnamed)
  exact ⟨c, by rw [instr_eq, hthumb, decode_named hc, decodeCategory_singleDataTransfer c hid3,
    decodeSingleDataTransfer_eq_transferForm]⟩

/-- R181, R182: a single transfer at a nonzero offset shows its display address. -/
theorem result_of_literal_transfer {s : State} (h : s.InCategory 0b010#3) (hoff : s.opcode.extractLsb' 0 12 ≠ 0#12) :
    ∃ c, ∀ t (regs : Vector Word 16), step { s with regs := regs } = .next t → t.result =
      .sdtLiteral c (bitAt s.opcode 20) (bitAt s.opcode 22) (extractUnsigned s.opcode 12 4)
        (displayAddress regs (bitAt s.opcode 23) (extractUnsigned s.opcode 16 4) (extractUnsigned s.opcode 0 12)) := by
  obtain ⟨c, hc⟩ := instr_of_inCategory_singleDataTransfer h
  refine ⟨c, fun t regs ht => ?_⟩
  have hinstr : ({ s with regs := regs } : State).instr = s.instr := rfl
  rw [step_eq_next ht, emit_result, hinstr, hc, resultOf_transferForm]
  exact singleTransfer_ne _ _ _ _ _ _ _ hoff

/-! ### The fetch address -/

/-- R22: outside the Branch category the tree does not read the fetch address. -/
theorem facade_pc_of_not_branch {s : State} (hcat : ¬ s.InCategory 0b101#3) (pc : Word) :
    facade s.thumb s.opcode pc s.regs = facade s.thumb s.opcode s.pc s.regs := by
  cases hthumb : s.thumb with
  | true => rfl
  | false =>
    cases hcond : Cond.ofBits (s.opcode.extractLsb' 28 4) with
    | none => rw [facade_reserved _ _ hcond, facade_reserved _ _ hcond]
    | some c =>
      simp only [facade, hcond, Bool.false_eq_true, if_false]
      split
      case h_5 hid3 => exact absurd (inCategory_of_named hthumb hcond (BitVec.eq_of_toNat_eq (y := 0b101#3) hid3)) hcat
      all_goals rfl

end Sys2Proof.Machine

open Sys2Proof.Machine

/-- Settles O16: both results are literal transfers of the same fields, and their addresses differ as their bases do. -/
theorem literalBaseIsRead : Obligations.LiteralBaseIsRead := by
  intro s t u regs hcat hoff hbase ht hu hresult
  obtain ⟨c, hliteral⟩ := result_of_literal_transfer hcat hoff
  rw [hliteral t s.regs ht, hliteral u regs hu] at hresult
  injection hresult with _ _ _ _ haddress
  exact hbase ((displayAddress_eq_iff ..).mp haddress).symm

/-- Settles O17: a step shows the tree's result, and the tree reads the fetch address in the Branch arm only. -/
theorem fetchAddressReadOnlyByBranch : Obligations.FetchAddressReadOnlyByBranch :=
  fun _ pc hcat => sameOutputs_step_of_facade_eq (facade_pc_of_not_branch hcat pc).symm

end

section
/-! PROOFS. The address arithmetic (20_memory.md): exact sums narrowed once, and a branch target's alignment. -/

namespace Sys2Proof.Machine

/-- R220: 8 and four times the field are multiples of 4, and so is the modulus. -/
theorem branchTarget_aligned_iff (pc : Word) (imm24 : BitVec 24) :
    (branchTarget pc imm24).toNat % 4 = 0 ↔ pc.toNat % 4 = 0 := by
  rw [branchTarget_eq_targetOf, targetOf, BitVec.toNat_ofInt]
  omega

end Sys2Proof.Machine

open Sys2Proof Sys2Proof.Machine

/-- Settles O45: the display address and the branch target are each the exact sum narrowed. -/
theorem addressesWrapModulo : Obligations.AddressesWrapModulo := ⟨displayAddress_eq_addressOf, branchTarget_eq_targetOf⟩

/-- Settles O44: each branch emits its target, which is a multiple of 4 exactly when the fetch address is. -/
theorem targetAlignedWhenFetchIs : Obligations.TargetAlignedWhenFetchIs :=
  ⟨fun c i s => ⟨_, _, exec_eq (.b c i) s, rfl, branchTarget_aligned_iff s.pc i⟩,
    fun c i s => ⟨_, _, exec_eq (.bl c i) s, rfl, branchTarget_aligned_iff s.pc i⟩, branchTarget_aligned_iff⟩

end

section
/-! PROOFS. Words with fixed values: the samples of 95_test_vectors.md and the system encodings of 60_exceptions.md. -/

namespace Sys2Proof.Machine

/-- A presented word's step emits the result of the form it decodes to. -/
theorem step_setOpcode {s : State} (hthumb : s.thumb = false) {w : Word} {i : Instr} (h : decode false w = i) :
    step { s with opcode := w } = .next ({ s with opcode := w }.emit (resultOf i s)) := by
  have hinstr : ({ s with opcode := w } : State).instr = i := by rw [instr_eq, hthumb, h]
  rw [step_eq, hinstr, resultOf_setOpcode]

end Sys2Proof.Machine

open Sys2Proof Sys2Proof.Machine

/-- Settles O1: eight words, each decoded by evaluation. -/
theorem sampleWordsDecodeRight : Obligations.SampleWordsDecodeRight := by
  unfold Obligations.SampleWordsDecodeRight
  decide

/-- Settles O49: the seven words decode to sentinel forms by evaluation, and each form emits its sentinel in every state. -/
theorem systemWordsShowSentinels : Obligations.SystemWordsShowSentinels := by
  intro s hthumb
  simp only [List.forall_mem_cons]
  have hswi : decode false 0xEF000000#32 = .unknownId3xE .al := by decide
  have hmcr : decode false 0xEE010F10#32 = .unknownId3xE .al := by decide
  have hldc : decode false 0xED900100#32 = .unknownId3xC .al := by decide
  have hmrs : decode false 0xE10F0000#32 = .unknownMiscCategory .al 0b0000#4 := by decide
  have hmsr : decode false 0xE129F000#32 = .unknownMiscCategory .al 0b0000#4 := by decide
  have hbkpt : decode false 0xE1200070#32 = .unknownMiscCategory .al 0b0111#4 := by decide
  have hmsrImmediate : decode false 0xE328F20F#32 = .unknownDataProcessing .al 0b1001#4 := by decide
  exact ⟨⟨step_setOpcode hthumb hswi, step_setOpcode hthumb hmcr, step_setOpcode hthumb hldc, nofun⟩,
    ⟨step_setOpcode hthumb hmrs, step_setOpcode hthumb hmsr, step_setOpcode hthumb hbkpt, nofun⟩,
    step_setOpcode hthumb hmsrImmediate⟩

end

section
/-! PROOFS. Printable texts (D23): every byte of every part is printable, so every rendering is. -/

namespace Sys2Proof.Machine

/-- Every byte is a printable ASCII character (D23). -/
def printable (t : Text) : Bool := t.all fun x => 0x20 ≤ x.toNat && x.toNat ≤ 0x7E

theorem printable_iff (t : Text) : printable t = true ↔ ∀ x ∈ t, 0x20 ≤ x.toNat ∧ x.toNat ≤ 0x7E := by
  simp [printable]

@[simp] theorem printable_append (t u : Text) : printable (t ++ u) = (printable t && printable u) := List.all_append

/-! ### The parts -/

@[simp] theorem printable_suffix (c : Cond) : printable (suffix c) = true := by cases c <;> decide

@[simp] theorem printable_sfx (s : Bool) : printable (sfx s) = true := by cases s <;> decide

@[simp] theorem printable_bsfx (b : Bool) : printable (bsfx b) = true := by cases b <;> decide

@[simp] theorem printable_wb (w : Bool) : printable (wb w) = true := by cases w <;> decide

@[simp] theorem printable_name (r : Reg) : printable (name r) = true := by revert r; decide

@[simp] theorem printable_space : printable (ascii " ") = true := by decide

@[simp] theorem printable_sep : printable sep = true := by decide

@[simp] theorem printable_hex (v : Word) : printable (hex v) = true := by
  have hdigit : ∀ d : BitVec 4, 0x20 ≤ (hexDigit d).toNat ∧ (hexDigit d).toNat ≤ 0x7E := by decide
  have hprefix : printable (ascii "0x") = true := by decide
  rw [hex, printable_append, hprefix]
  simp [printable, hdigit]

@[simp] theorem printable_immediate (i : BitVec 12) : printable (immediate i) = true := by
  have hmark : printable (ascii "#") = true := by decide
  simp [immediate, hmark]

@[simp] theorem printable_joinComma : ∀ ts : List Text, printable (joinComma ts) = ts.all printable
  | [] => rfl
  | [t] => by simp
  | t :: u :: ts => by
    have hcomma : printable (ascii ",") = true := by decide
    simp [hcomma, printable_joinComma (u :: ts)]

@[simp] theorem printable_bracedList (m : BitVec 16) : printable (bracedList m) = true := by
  have hopen : printable [0x7B#8] = true := by decide
  have hclose : printable [0x7D#8] = true := by decide
  rw [bracedList, printable_append, printable_append, hopen, hclose, reglist, printable_joinComma]
  simp

/-! ### The renderings -/

theorem printable_renderBlock {base modetext : Text} (hbase : printable base = true) (hmode : printable modetext = true)
    (c n w l) : printable (renderBlock base modetext c n w l) = true := by
  simp [renderBlock, hbase, hmode]

theorem printable_renderThreeOperand {base : Text} (hbase : printable base = true) (c s d n i) :
    printable (renderThreeOperand base c s d n i) = true := by
  simp [renderThreeOperand, hbase]

theorem printable_renderBranch {base : Text} (hbase : printable base = true) (c t) :
    printable (renderBranch base c t) = true := by
  simp [renderBranch, hbase]

@[simp] theorem printable_transferMnemonic (l b c) : printable (transferMnemonic l b c) = true := by
  have hbase : printable (if l then ascii "LDR" else ascii "STR") = true := by cases l <;> decide
  simp [transferMnemonic, hbase]

theorem printable_render (r : Result) : printable (render r) = true := by
  cases r with
  | bx c m =>
    have hbase : printable (ascii "BX") = true := by decide
    simp [render, hbase]
  | dpSub | dpAdd => exact printable_renderThreeOperand (by decide) ..
  | dpMov c s d i =>
    have hbase : printable (ascii "MOV") = true := by decide
    simp [render, renderMove, hbase]
  | sdtIndexed c l b d n =>
    have hopen : printable (ascii "[") = true := by decide
    have hclose : printable (ascii "]") = true := by decide
    simp [render, renderIndexed, hopen, hclose]
  | sdtLiteral c l b d a =>
    have hequals : printable (ascii "=") = true := by decide
    simp [render, renderLiteral, hequals]
  | stmDb | stmFd | ldmDb => exact printable_renderBlock (by decide) (by decide) ..
  | b | bl => exact printable_renderBranch (by decide) ..
  | _ => decide

/-! ### Good outputs -/

/-- R26: a well-formed form gives a result within its limits. -/
theorem resultOf_wf {i : Instr} (hwf : i.wf = true) (s : State) : (resultOf i s).wf = true := by
  have htransfer : ∀ c l b u n d o, (singleTransfer s.regs c l b u n d o).wf = true := by
    intro c l b u n d o
    unfold singleTransfer
    split <;> rfl
  cases i with
  | stmdb | ldmdb => exact hwf
  | str | strb | ldr | ldrb => exact htransfer ..
  | _ => rfl

/-- A written result within its limits makes good outputs, whatever the outputs were. -/
theorem outputsGood_emit (s : State) {r : Result} (hwf : r.wf = true) : (s.emit r).OutputsGood := by
  obtain ⟨hmin, hmax⟩ := render_length_bounds r
  exact ⟨hwf, rfl, rfl, hmin, hmax, (printable_iff _).mp (printable_render r)⟩

theorem outputsGood_of_step {s t : State} (h : step s = .next t) : t.OutputsGood :=
  step_eq_next h ▸ outputsGood_emit s (resultOf_wf (decode_wf s.thumb s.opcode) s)

end Sys2Proof.Machine

open Sys2Proof.Machine

/-- Settles O10: a step emits the result of a well-formed form, and every rendering is printable and within the bounds. -/
theorem stepKeepsOutputsGood : Obligations.StepKeepsOutputsGood := fun _ _ _ => outputsGood_of_step

/-- Settles O11: reset steps to itself, so its outputs are those of a step. -/
theorem resetOutputsGood : Obligations.ResetOutputsGood := ⟨outputsGood_of_step step_reset, step_reset⟩

end

section
/-! PROOFS. What a text determines (30_encoding.md section 8): each part is read back from the texts it stands in, up to the separator that ends it. -/

namespace Sys2Proof.Machine

/-- A text is cut in one way at the first occurrence of a byte. -/
theorem append_cons_inj_of_separator {x : Byte} : ∀ {a b s t : Text}, x ∉ a → x ∉ b →
    a ++ x :: s = b ++ x :: t → a = b ∧ s = t
  | [], [], _, _, _, _, h => ⟨rfl, (List.cons.inj h).2⟩
  | [], y :: b, _, _, _, hb, h => absurd ((List.cons.inj h).1 ▸ List.mem_cons_self) hb
  | y :: a, [], _, _, ha, _, h => absurd ((List.cons.inj h).1 ▸ List.mem_cons_self) ha
  | y :: a, z :: b, _, _, ha, hb, h => by
    obtain ⟨rfl, htail⟩ := List.cons.inj h
    obtain ⟨rfl, rfl⟩ := append_cons_inj_of_separator (List.not_mem_of_not_mem_cons ha)
      (List.not_mem_of_not_mem_cons hb) htail
    exact ⟨rfl, rfl⟩

/-! ### Operands -/

theorem name_injective : Function.Injective name := by
  intro r q h
  rw [name_eq_nameTable, name_eq_nameTable] at h
  exact nameTable_injective h

theorem hex_injective : Function.Injective hex := by
  intro v w h
  rw [← BitVec.toNat_inj, ← hexValue_hex v, ← hexValue_hex w, h]

theorem immediate_injective : Function.Injective immediate := by
  intro i j h
  have hzext : zext i = zext j := hex_injective (List.append_cancel_left h)
  unfold zext at hzext
  bv_omega

theorem comma_notMem_name (r : Reg) : 0x2C#8 ∉ name r := by revert r; decide

/-! ### Register lists -/

theorem splitOn_joinComma {ts : List Text} (hcomma : ∀ t ∈ ts, 0x2C#8 ∉ t) (hne : ts ≠ []) :
    (joinComma ts).splitOn 0x2C#8 = ts := by
  rw [joinComma_eq_intercalate]
  exact List.splitOn_intercalate _ hcomma hne

theorem joinComma_ne_nil {t : Text} (ht : t ≠ []) (ts : List Text) : joinComma (t :: ts) ≠ [] := by
  cases ts <;> simp [ht]

/-- R124: names joined by commas determine the registers. -/
theorem joinComma_names_injective : Function.Injective fun rs : List Reg => joinComma (rs.map name) := by
  have hne : ∀ r : Reg, name r ≠ [] := by decide
  have hcomma : ∀ rs : List Reg, ∀ t ∈ rs.map name, 0x2C#8 ∉ t := by simp [comma_notMem_name]
  intro rs qs h
  dsimp only at h
  match rs, qs with
  | [], [] => rfl
  | [], q :: _ => exact absurd h.symm (joinComma_ne_nil (hne q) _)
  | r :: _, [] => exact absurd h (joinComma_ne_nil (hne r) _)
  | r :: rs, q :: qs =>
    apply List.map_injective_iff.mpr name_injective
    rw [← splitOn_joinComma (hcomma (r :: rs)) (by simp), h, splitOn_joinComma (hcomma (q :: qs)) (by simp)]

theorem listed_injective : Function.Injective listed := by
  intro m k h
  apply BitVec.eq_of_getLsbD_eq
  intro i hi
  have hmem := (mem_listed m (BitVec.ofNat 4 i)).symm.trans (h ▸ mem_listed k (BitVec.ofNat 4 i))
  rw [BitVec.toNat_ofNat, Nat.mod_eq_of_lt hi] at hmem
  exact Bool.eq_iff_iff.mpr hmem

theorem reglist_injective : Function.Injective reglist := fun _ _ h => listed_injective (joinComma_names_injective h)

theorem bracedList_injective : Function.Injective bracedList := fun _ _ h =>
  reglist_injective (List.append_cancel_left (List.append_cancel_right h))

/-! ### Mnemonics -/

/-- The mnemonics of the decoded forms, before the condition suffix. -/
inductive Mnemonic where
  | bx | sub (s : Bool) | add (s : Bool) | mov (s : Bool) | transfer (load byte : Bool)
  | stmdb | stmfd | ldmdb | b | bl

/-- The spelling of a mnemonic, put together as the formatters do it (R145, R160, R180, R201, R221, R222). -/
def Mnemonic.text : Mnemonic → Text
  | .bx => ascii "BX"
  | .sub s => ascii "SUB" ++ sfx s
  | .add s => ascii "ADD" ++ sfx s
  | .mov s => ascii "MOV" ++ sfx s
  | .transfer load byte => (if load then ascii "LDR" else ascii "STR") ++ bsfx byte
  | .stmdb => ascii "STM" ++ ascii "DB"
  | .stmfd => ascii "STM" ++ ascii "FD"
  | .ldmdb => ascii "LDM" ++ ascii "DB"
  | .b => ascii "B"
  | .bl => ascii "BL"

/-- The sixteen mnemonics, for the facts that are checked on each of them. -/
def Mnemonic.all : List Mnemonic :=
  [.bx, .sub false, .sub true, .add false, .add true, .mov false, .mov true, .transfer false false,
   .transfer false true, .transfer true false, .transfer true true, .stmdb, .stmfd, .ldmdb, .b, .bl]

theorem Mnemonic.mem_all (m : Mnemonic) : m ∈ Mnemonic.all := by
  cases m with
  | sub s | add s | mov s => cases s <;> simp [Mnemonic.all]
  | transfer load byte => cases load <;> cases byte <;> simp [Mnemonic.all]
  | _ => simp [Mnemonic.all]

theorem Mnemonic.text_injective : Function.Injective Mnemonic.text := by
  have hnodup : (Mnemonic.all.map Mnemonic.text).Nodup := by decide
  exact fun m k h => List.inj_on_of_nodup_map hnodup m.mem_all k.mem_all h

theorem suffix_injective : Function.Injective suffix := by
  intro c k h
  cases c <;> revert h <;> cases k <;> decide

/-- No mnemonic is another one and two letters more, so a suffix is not mistaken for a part of the mnemonic. -/
theorem Mnemonic.text_ne_append_suffix (m k : Mnemonic) {c : Cond} (hc : c ≠ .al) : m.text ≠ k.text ++ suffix c := by
  have hall : ∀ m ∈ Mnemonic.all, ∀ k ∈ Mnemonic.all,
      m.text.length = k.text.length + 2 → ¬ k.text <+: m.text := by decide
  intro h
  refine hall m m.mem_all k k.mem_all ?_ ⟨_, h.symm⟩
  rw [h, List.length_append, suffix_length, if_neg hc]

/-- The mnemonic and the condition are read back from what stands before the first space. -/
theorem mnemonic_suffix_inj {m k : Mnemonic} {c e : Cond} (h : m.text ++ suffix c = k.text ++ suffix e) :
    m = k ∧ c = e := by
  have hal : suffix .al = [] := rfl
  rcases eq_or_ne c .al with rfl | hc <;> rcases eq_or_ne e .al with rfl | he
  · exact ⟨Mnemonic.text_injective (List.append_cancel_right h), rfl⟩
  · rw [hal, List.append_nil] at h
    exact absurd h (Mnemonic.text_ne_append_suffix m k he)
  · rw [hal, List.append_nil] at h
    exact absurd h.symm (Mnemonic.text_ne_append_suffix k m hc)
  · have hlength : (suffix c).length = (suffix e).length := by rw [suffix_length, suffix_length, if_neg hc, if_neg he]
    obtain ⟨htext, hsuffix⟩ := List.append_inj' h hlength
    exact ⟨Mnemonic.text_injective htext, suffix_injective hsuffix⟩

/-! ### Decoded forms -/

/-- The parts of a decoded result's text: the mnemonic, the condition and the operands. A sentinel's text has no such parts. -/
inductive HasParts : Result → Mnemonic → Cond → Text → Prop where
  | bx (c m) : HasParts (.bx c m) .bx c (name m)
  | sub (c s d n i) : HasParts (.dpSub c s d n i) (.sub s) c (name d ++ (sep ++ (name n ++ (sep ++ immediate i))))
  | add (c s d n i) : HasParts (.dpAdd c s d n i) (.add s) c (name d ++ (sep ++ (name n ++ (sep ++ immediate i))))
  | mov (c s d i) : HasParts (.dpMov c s d i) (.mov s) c (name d ++ (sep ++ immediate i))
  | indexed (c l b d n) : HasParts (.sdtIndexed c l b d n) (.transfer l b) c
      (name d ++ (sep ++ (ascii "[" ++ (name n ++ ascii "]"))))
  | literal (c l b d a) : HasParts (.sdtLiteral c l b d a) (.transfer l b) c (name d ++ (sep ++ (ascii "=" ++ hex a)))
  | stmdb (c n w m) : HasParts (.stmDb c n w m) .stmdb c (name n ++ wb w ++ (sep ++ bracedList m))
  | stmfd (c w m) : HasParts (.stmFd c w m) .stmfd c (name 13#4 ++ wb w ++ (sep ++ bracedList m))
  | ldmdb (c n w m) : HasParts (.ldmDb c n w m) .ldmdb c (name n ++ wb w ++ (sep ++ bracedList m))
  | b (c t) : HasParts (.b c t) .b c (hex t)
  | bl (c t) : HasParts (.bl c t) .bl c (hex t)

theorem render_of_hasParts {r : Result} {m : Mnemonic} {c : Cond} {o : Text} (h : HasParts r m c o) :
    render r = m.text ++ suffix c ++ (ascii " " ++ o) := by
  cases h <;>
    simp only [render, renderThreeOperand, renderMove, renderIndexed, renderLiteral, renderBlock, renderBranch,
      transferMnemonic, Mnemonic.text, List.append_assoc]

theorem exists_hasParts {r : Result} (h : r.isSentinel = false) : ∃ m c o, HasParts r m c o := by
  cases r with
  | reservedCond | unknownVariousOp | unknownMiscCategory | unknownMiscOther | unknown | unknownDataProcessing
  | unknownSPLoadMultiple | unknownAddressingMode | unknownThumb => cases h
  | _ => exact ⟨_, _, _, by constructor⟩

theorem space_notMem_mnemonic (m : Mnemonic) (c : Cond) : 0x20#8 ∉ m.text ++ suffix c := by
  have hall : ∀ m ∈ Mnemonic.all, 0x20#8 ∉ m.text := by decide
  have hsuffix : 0x20#8 ∉ suffix c := by cases c <;> decide
  exact fun h => (List.mem_append.mp h).elim (hall m m.mem_all) hsuffix

/-! ### The operands of a decoded form -/

theorem name_sep_inj {d e : Reg} {s t : Text} (h : name d ++ (sep ++ s) = name e ++ (sep ++ t)) : d = e ∧ s = t := by
  obtain ⟨hname, hrest⟩ := append_cons_inj_of_separator (comma_notMem_name d) (comma_notMem_name e) h
  exact ⟨name_injective hname, (List.cons.inj hrest).2⟩

/-- R201: a register's name and the write-back marker; no name has a `!`. -/
theorem name_wb_inj {n k : Reg} {w v : Bool} (h : name n ++ wb w = name k ++ wb v) : n = k ∧ w = v := by
  revert n k w v
  decide

theorem blockOperands_inj {n k : Reg} {w v : Bool} {l m : BitVec 16}
    (h : name n ++ wb w ++ (sep ++ bracedList l) = name k ++ wb v ++ (sep ++ bracedList m)) : n = k ∧ w = v ∧ l = m := by
  have hcomma : ∀ (r : Reg) (x : Bool), 0x2C#8 ∉ name r ++ wb x := by decide
  obtain ⟨hbase, hrest⟩ := append_cons_inj_of_separator (hcomma n w) (hcomma k v) h
  obtain ⟨rfl, rfl⟩ := name_wb_inj hbase
  exact ⟨rfl, rfl, bracedList_injective (List.cons.inj hrest).2⟩

theorem threeOperands_inj {d e n k : Reg} {i j : BitVec 12}
    (h : name d ++ (sep ++ (name n ++ (sep ++ immediate i))) = name e ++ (sep ++ (name k ++ (sep ++ immediate j)))) :
    d = e ∧ n = k ∧ i = j := by
  obtain ⟨rfl, hrest⟩ := name_sep_inj h
  obtain ⟨rfl, himmediate⟩ := name_sep_inj hrest
  exact ⟨rfl, rfl, immediate_injective himmediate⟩

/-- The mnemonic, the condition and the operands of a decoded form determine it. -/
theorem eq_of_hasParts {r q : Result} {m : Mnemonic} {c : Cond} {o p : Text} (hr : HasParts r m c o)
    (hq : HasParts q m c p) (h : o = p) : r = q := by
  cases hr with
  | bx => cases hq; rw [name_injective h]
  | sub | add =>
    cases hq
    obtain ⟨rfl, rfl, rfl⟩ := threeOperands_inj h
    rfl
  | mov =>
    cases hq
    obtain ⟨rfl, himmediate⟩ := name_sep_inj h
    rw [immediate_injective himmediate]
  | indexed =>
    cases hq with
    | indexed =>
      obtain ⟨rfl, hbase⟩ := name_sep_inj h
      rw [name_injective (List.append_cancel_right (List.append_cancel_left hbase))]
    | literal =>
      obtain ⟨-, hmark⟩ := name_sep_inj h
      exact absurd (List.cons.inj hmark).1 (by decide)
  | literal =>
    cases hq with
    | indexed =>
      obtain ⟨-, hmark⟩ := name_sep_inj h
      exact absurd (List.cons.inj hmark).1 (by decide)
    | literal =>
      obtain ⟨rfl, haddress⟩ := name_sep_inj h
      rw [hex_injective (List.append_cancel_left haddress)]
  | stmdb | ldmdb =>
    cases hq
    obtain ⟨rfl, rfl, rfl⟩ := blockOperands_inj h
    rfl
  | stmfd =>
    cases hq
    obtain ⟨-, rfl, rfl⟩ := blockOperands_inj h
    rfl
  | b | bl => cases hq; rw [hex_injective h]

/-- Two decoded forms with one text: the first space ends the mnemonic, and what follows it is the operands. -/
theorem eq_of_render_eq_of_decoded {r q : Result} (hr : r.isSentinel = false) (hq : q.isSentinel = false)
    (h : render r = render q) : r = q := by
  obtain ⟨m, c, o, hr⟩ := exists_hasParts hr
  obtain ⟨k, e, p, hq⟩ := exists_hasParts hq
  rw [render_of_hasParts hr, render_of_hasParts hq] at h
  obtain ⟨hmnemonic, hoperands⟩ :=
    append_cons_inj_of_separator (space_notMem_mnemonic m c) (space_notMem_mnemonic k e) h
  obtain ⟨rfl, rfl⟩ := mnemonic_suffix_inj hmnemonic
  exact eq_of_hasParts hr hq hoperands

/-! ### Sentinels -/

/-- The nine sentinel results (R86, R241). -/
def sentinels : List Result :=
  [.reservedCond, .unknownVariousOp, .unknownMiscCategory, .unknownMiscOther, .unknown, .unknownDataProcessing,
   .unknownSPLoadMultiple, .unknownAddressingMode, .unknownThumb]

theorem mem_sentinels {r : Result} (h : r.isSentinel = true) : r ∈ sentinels := by
  cases r <;> cases h <;> decide

theorem eq_of_render_eq_of_isSentinel {r q : Result} (hr : r.isSentinel = true) (hq : q.isSentinel = true)
    (h : render r = render q) : r = q := by
  have hnodup : (sentinels.map render).Nodup := by decide
  exact List.inj_on_of_nodup_map hnodup (mem_sentinels hr) (mem_sentinels hq) h

/-- No sentinel's text begins with the first letter of a mnemonic. -/
theorem render_ne_of_isSentinel {r q : Result} (hr : r.isSentinel = true) (hq : q.isSentinel = false) :
    render r ≠ render q := by
  have hhead : ∀ r ∈ sentinels, ∀ m ∈ Mnemonic.all, (render r).head? ≠ m.text.head? := by decide
  have hne : ∀ m ∈ Mnemonic.all, m.text ≠ [] := by decide
  obtain ⟨m, c, o, hq⟩ := exists_hasParts hq
  intro h
  apply hhead r (mem_sentinels hr) m m.mem_all
  rw [h, render_of_hasParts hq, List.append_assoc, List.head?_append_of_ne_nil _ (hne m m.mem_all)]

theorem eq_of_render_eq_sentinel {r q : Result} (hr : r.isSentinel = true) (h : render r = render q) : r = q := by
  cases hq : q.isSentinel with
  | true => exact eq_of_render_eq_of_isSentinel hr hq h
  | false => exact absurd h (render_ne_of_isSentinel hr hq)

theorem render_injective : Function.Injective render := by
  intro r q h
  cases hr : r.isSentinel with
  | true => exact eq_of_render_eq_sentinel hr h
  | false =>
    cases hq : q.isSentinel with
    | true => exact (eq_of_render_eq_sentinel hq h.symm).symm
    | false => exact eq_of_render_eq_of_decoded hr hq h

end Sys2Proof.Machine

open Sys2Proof.Machine

/-- Settles O42: commas cut the list into names, and the names give the set bits of the mask. -/
theorem registerListDeterminesMask : Obligations.RegisterListDeterminesMask := fun _ _ h => reglist_injective h

/-- Settles O47: the nine texts are distinct, and none begins as a mnemonic does. -/
theorem sentinelTextsAreDistinct : Obligations.SentinelTextsAreDistinct := fun _ _ => eq_of_render_eq_sentinel

/-- Settles O48: a text is a sentinel's, or its mnemonic, condition and operands are read back one by one. -/
theorem textDeterminesResult : Obligations.TextDeterminesResult := fun _ _ h => render_injective h

end
